-- ==== Sys2Proof/Word.lean ====
section
/-! DEFINITION. The two words the decoder moves: the 8-bit input byte (`BYTE_W`, 00_scope.md R6) and the 7-bit value
of a data byte (`DATA_W`). Bits are numbered from 0, the least significant; every value is unsigned (R7). -/

namespace Sys2Proof

/-- One input byte; bit 7 is the most significant bit (20_memory.md R33, R44). -/
abbrev Byte := BitVec 8

/-- The value of a data byte, 0 to 127 (30_encoding.md R57). -/
abbrev Data7 := BitVec 7

end Sys2Proof
end

