-- ==== Sys2Proof/Config.lean ====
section
/-! DEFINITION. What is fixed for one decoder and the one value the spec leaves open. The parameters of
00_scope.md R6 are widths and are carried by the types; `N_INSTANCES` is a parameter of the system around the block
(60_exceptions.md R122): Machine/Instances.lean takes any number. -/

namespace Sys2Proof

/-- FREE VALUE (70_reset_and_hazards.md R132; DESIGN CHOICE of its form, log 2): the byte a rising edge takes
when `in_byte` is not stable there. "A model should treat such a byte as any of the 256 values, never as a chosen
one." The argument is `State.unstable_draws`, so that every unstable edge of one decoder has a value of
its own: safe. ONE function serves every instance and every run, so two of them with equal `unstable_draws` draw the
same byte, where R132 allows any two: DESIGN CHOICE, log 2, unsafe for a claim that compares the two. -/
opaque Config.unstableByte : Nat → Byte

end Sys2Proof
end

