-- ==== Sys2Proof/Syntax.lean ====
section
/-! DEFINITION. The decoder's instructions are the 256 input byte values (30_encoding.md, opening): one constructor per
row of spec/opcode_table.json, its operand fields at the widths the table gives them. Beside them the messages the
decoder delivers (R66, 42_synthesizer.md R97). -/

namespace Sys2Proof

/-- One accepted input byte, by the row of spec/opcode_table.json it falls in (30_encoding.md R53, R56, R70).
`v` is the data value `b[6:0]` (R57), `c` the channel nibble `b[3:0]` (R55). -/
inductive Instr where
  | data (v : Data7)
  | noteOff (c : BitVec 4)
  | noteOn (c : BitVec 4)
  | noteAftertouch (c : BitVec 4)
  | controlChange (c : BitVec 4)
  | programChange (c : BitVec 4)
  | channelAftertouch (c : BitVec 4)
  | pitchBend (c : BitVec 4)
  | sysexStart
  | sysCommonF1
  | sysCommonF2
  | sysCommonF3
  | sysCommonF4
  | sysCommonF5
  | sysCommonF6
  | eox
  | realtimeF8
  | realtimeF9
  | realtimeFA
  | realtimeFB
  | realtimeFC
  | realtimeFD
  | realtimeFE
  | realtimeFF
  deriving DecidableEq, Repr

/-- A delivered message: its kind with its fields in the order of 30_encoding.md R66. The channel has the 5 bits of
`msg_channel` and ranges over 1 to 16 (R63); the check is `Message.wellFormed`. -/
inductive Message where
  | noteOff (channel : BitVec 5) (note velocity : Data7)
  | noteOn (channel : BitVec 5) (note velocity : Data7)
  | noteAftertouch (channel : BitVec 5) (note velocity : Data7)
  | controlChange (channel : BitVec 5) (control value : Data7)
  | programChange (channel : BitVec 5) (program : Data7)
  | channelAftertouch (channel : BitVec 5) (velocity : Data7)
  | pitchBend (channel : BitVec 5) (value : BitVec 14)
  deriving DecidableEq, Repr

/-- The channel every kind carries (30_encoding.md R66). -/
def Message.channel : Message → BitVec 5
  | .noteOff ch _ _ => ch
  | .noteOn ch _ _ => ch
  | .noteAftertouch ch _ _ => ch
  | .controlChange ch _ _ => ch
  | .programChange ch _ => ch
  | .channelAftertouch ch _ => ch
  | .pitchBend ch _ => ch

end Sys2Proof
end

