-- ==== Sys2Proof/WellFormed.lean ====
section
/-! DEFINITION. Which terms are well formed. An instruction's fields carry their ranges in their types (a 7-bit data
value, 30_encoding.md R57; a 4-bit channel nibble, R55), so its check states the ranges and every instruction meets
it. A message's channel is held in 5 bits and must be 1 to 16 (R63, R67; 42_synthesizer.md R107): that check can
fail, and Tests/Slice0.lean shows the ill-formed terms it refuses. -/

namespace Sys2Proof

/-- The ranges of the operand fields: data value 0 to 127, channel nibble 0 to 15. -/
def Instr.wellFormed : Instr → Bool
  | .data v => v.toNat ≤ 127
  | .noteOff c => c.toNat ≤ 15
  | .noteOn c => c.toNat ≤ 15
  | .noteAftertouch c => c.toNat ≤ 15
  | .controlChange c => c.toNat ≤ 15
  | .programChange c => c.toNat ≤ 15
  | .channelAftertouch c => c.toNat ≤ 15
  | .pitchBend c => c.toNat ≤ 15
  | .sysexStart => true
  | .sysCommonF1 => true
  | .sysCommonF2 => true
  | .sysCommonF3 => true
  | .sysCommonF4 => true
  | .sysCommonF5 => true
  | .sysCommonF6 => true
  | .eox => true
  | .realtimeF8 => true
  | .realtimeF9 => true
  | .realtimeFA => true
  | .realtimeFB => true
  | .realtimeFC => true
  | .realtimeFD => true
  | .realtimeFE => true
  | .realtimeFF => true

/-- A channel a message may carry: 1 to 16 (30_encoding.md R63). -/
def channelInRange (ch : BitVec 5) : Bool := 1 ≤ ch.toNat && ch.toNat ≤ 16

/-- Structurally complete and in range (42_synthesizer.md R107): the channel is 1 to 16; the 7-bit fields and the
14-bit Pitch Bend value are in range by their widths. -/
def Message.wellFormed (m : Message) : Bool := channelInRange m.channel

end Sys2Proof
end

