-- ==== Sys2Proof/Decode.lean ====
section
/-! DEFINITION. The encoding of the input bytes (30_encoding.md): byte classes, fields, the opcode table, the decoder
(total: every byte value has a meaning, R68; the only thing it rejects, by name, is that there is no byte), and the
encoder written from the same patterns. Every instruction is one byte. -/

namespace Sys2Proof

/-- The six classes of 30_encoding.md R53. -/
inductive ByteClass where
  | data
  | channelStatus
  | sysexStart
  | otherSystemCommon
  | eox
  | realTime
  deriving DecidableEq, Repr

/-- The class of a byte, by the tests of 30_encoding.md R54 in their order. -/
def byteClass (b : Byte) : ByteClass :=
  if 0xF8#8 ≤ b then .realTime
  else if b.getLsbD 7 = false then .data
  else if b ≤ 0xEF#8 then .channelStatus
  else if b = 0xF0#8 then .sysexStart
  else if b = 0xF7#8 then .eox
  else .otherSystemCommon

/-- `b[6:0]`, the value of a data byte (R57). -/
def dataValue (b : Byte) : Data7 := b.extractLsb' 0 7

/-- `s[3:0]`, the channel nibble of a channel status byte (R55). -/
def channelNibble (s : Byte) : BitVec 4 := s.extractLsb' 0 4

/-- `s[7:4]`, the upper nibble of a status byte (R56). -/
def upperNibble (s : Byte) : BitVec 4 := s.extractLsb' 4 4

/-- `s[6:4]`, the family code of a channel status byte (R55). -/
def familyCode (s : Byte) : BitVec 3 := s.extractLsb' 4 3

/-- The bytes `1111xxxx` by their low nibble: System Common (R53: 0xF0 to 0xF7) and Real-Time (0xF8 to 0xFF). -/
def decodeSystem (b : Byte) : Instr :=
  match b.getLsbD 3, b.getLsbD 2, b.getLsbD 1, b.getLsbD 0 with
  | false, false, false, false => .sysexStart
  | false, false, false, true  => .sysCommonF1
  | false, false, true,  false => .sysCommonF2
  | false, false, true,  true  => .sysCommonF3
  | false, true,  false, false => .sysCommonF4
  | false, true,  false, true  => .sysCommonF5
  | false, true,  true,  false => .sysCommonF6
  | false, true,  true,  true  => .eox
  | true,  false, false, false => .realtimeF8
  | true,  false, false, true  => .realtimeF9
  | true,  false, true,  false => .realtimeFA
  | true,  false, true,  true  => .realtimeFB
  | true,  true,  false, false => .realtimeFC
  | true,  true,  false, true  => .realtimeFD
  | true,  true,  true,  false => .realtimeFE
  | true,  true,  true,  true  => .realtimeFF

/-- The instruction of a byte, by the bit patterns of R53 and the family table of R56. The nibbles of NoteAftertouch,
ControlChange, ProgramChange and ChannelAftertouch are the spec's general knowledge (UNVERIFIED, log 4, unsafe). -/
def decodeByte (b : Byte) : Instr :=
  match b.getLsbD 7, b.getLsbD 6, b.getLsbD 5, b.getLsbD 4 with
  | false, _,     _,     _     => .data (dataValue b)
  | true,  false, false, false => .noteOff (channelNibble b)
  | true,  false, false, true  => .noteOn (channelNibble b)
  | true,  false, true,  false => .noteAftertouch (channelNibble b)
  | true,  false, true,  true  => .controlChange (channelNibble b)
  | true,  true,  false, false => .programChange (channelNibble b)
  | true,  true,  false, true  => .channelAftertouch (channelNibble b)
  | true,  true,  true,  false => .pitchBend (channelNibble b)
  | true,  true,  true,  true  => decodeSystem b

/-- Why the list decoder rejects: `noByte`, there is no byte to decode (safe: nothing is taken for an instruction).
No byte VALUE is ever rejected (30_encoding.md R68). -/
inductive DecodeReject where
  | noByte
  deriving DecidableEq, Repr

/-- What the list decoder answers. -/
inductive Decoded where
  | ok (i : Instr) (rest : List Byte)
  | rejected (why : DecodeReject)
  deriving DecidableEq, Repr

/-- Decode the first instruction of a byte stream; the rest of the stream comes with it (00_scope.md R8). -/
def decode : List Byte → Decoded
  | [] => .rejected .noByte
  | b :: rest => .ok (decodeByte b) rest

/-- The byte of an instruction, from the bit patterns of 30_encoding.md R53 and R56. -/
def encodeByte : Instr → Byte
  | .data v => 0b0#1 ++ v
  | .noteOff c => 0x8#4 ++ c
  | .noteOn c => 0x9#4 ++ c
  | .noteAftertouch c => 0xA#4 ++ c
  | .controlChange c => 0xB#4 ++ c
  | .programChange c => 0xC#4 ++ c
  | .channelAftertouch c => 0xD#4 ++ c
  | .pitchBend c => 0xE#4 ++ c
  | .sysexStart => 0xF0#8
  | .sysCommonF1 => 0xF1#8
  | .sysCommonF2 => 0xF2#8
  | .sysCommonF3 => 0xF3#8
  | .sysCommonF4 => 0xF4#8
  | .sysCommonF5 => 0xF5#8
  | .sysCommonF6 => 0xF6#8
  | .eox => 0xF7#8
  | .realtimeF8 => 0xF8#8
  | .realtimeF9 => 0xF9#8
  | .realtimeFA => 0xFA#8
  | .realtimeFB => 0xFB#8
  | .realtimeFC => 0xFC#8
  | .realtimeFD => 0xFD#8
  | .realtimeFE => 0xFE#8
  | .realtimeFF => 0xFF#8

/-- The words of an instruction: its one byte. -/
def encode (i : Instr) : List Byte := [encodeByte i]

/-- A row of spec/opcode_table.json: the bytes `b` with `b & mask = pattern` (30_encoding.md R70). -/
structure OpcodeRow where
  mnemonic : String
  pattern  : Byte
  mask     : Byte
  deriving DecidableEq, Repr

/-- The byte is one of the row's (R70). -/
def OpcodeRow.holds (r : OpcodeRow) (b : Byte) : Bool := (b &&& r.mask) = r.pattern

/-- Data and the seven channel status families. -/
def channelRows : List OpcodeRow :=
  [⟨"DATA", 0x00, 0x80⟩, ⟨"NOTE_OFF", 0x80, 0xF0⟩, ⟨"NOTE_ON", 0x90, 0xF0⟩, ⟨"NOTE_AFTERTOUCH", 0xA0, 0xF0⟩,
   ⟨"CONTROL_CHANGE", 0xB0, 0xF0⟩, ⟨"PROGRAM_CHANGE", 0xC0, 0xF0⟩, ⟨"CHANNEL_AFTERTOUCH", 0xD0, 0xF0⟩,
   ⟨"PITCH_BEND", 0xE0, 0xF0⟩]

/-- System Common. -/
def systemCommonRows : List OpcodeRow :=
  [⟨"SYSEX_START", 0xF0, 0xFF⟩, ⟨"SYS_COMMON_F1", 0xF1, 0xFF⟩, ⟨"SYS_COMMON_F2", 0xF2, 0xFF⟩,
   ⟨"SYS_COMMON_F3", 0xF3, 0xFF⟩, ⟨"SYS_COMMON_F4", 0xF4, 0xFF⟩, ⟨"SYS_COMMON_F5", 0xF5, 0xFF⟩,
   ⟨"SYS_COMMON_F6", 0xF6, 0xFF⟩, ⟨"EOX", 0xF7, 0xFF⟩]

/-- System Real-Time. -/
def realTimeRows : List OpcodeRow :=
  [⟨"REALTIME_F8", 0xF8, 0xFF⟩, ⟨"REALTIME_F9", 0xF9, 0xFF⟩, ⟨"REALTIME_FA", 0xFA, 0xFF⟩,
   ⟨"REALTIME_FB", 0xFB, 0xFF⟩, ⟨"REALTIME_FC", 0xFC, 0xFF⟩, ⟨"REALTIME_FD", 0xFD, 0xFF⟩,
   ⟨"REALTIME_FE", 0xFE, 0xFF⟩, ⟨"REALTIME_FF", 0xFF, 0xFF⟩]

/-- spec/opcode_table.json, row by row in its order. -/
def opcodeTable : List OpcodeRow := channelRows ++ systemCommonRows ++ realTimeRows

/-- The mnemonic of an instruction's row. -/
def Instr.mnemonic : Instr → String
  | .data _ => "DATA"
  | .noteOff _ => "NOTE_OFF"
  | .noteOn _ => "NOTE_ON"
  | .noteAftertouch _ => "NOTE_AFTERTOUCH"
  | .controlChange _ => "CONTROL_CHANGE"
  | .programChange _ => "PROGRAM_CHANGE"
  | .channelAftertouch _ => "CHANNEL_AFTERTOUCH"
  | .pitchBend _ => "PITCH_BEND"
  | .sysexStart => "SYSEX_START"
  | .sysCommonF1 => "SYS_COMMON_F1"
  | .sysCommonF2 => "SYS_COMMON_F2"
  | .sysCommonF3 => "SYS_COMMON_F3"
  | .sysCommonF4 => "SYS_COMMON_F4"
  | .sysCommonF5 => "SYS_COMMON_F5"
  | .sysCommonF6 => "SYS_COMMON_F6"
  | .eox => "EOX"
  | .realtimeF8 => "REALTIME_F8"
  | .realtimeF9 => "REALTIME_F9"
  | .realtimeFA => "REALTIME_FA"
  | .realtimeFB => "REALTIME_FB"
  | .realtimeFC => "REALTIME_FC"
  | .realtimeFD => "REALTIME_FD"
  | .realtimeFE => "REALTIME_FE"
  | .realtimeFF => "REALTIME_FF"

/-- The row of spec/opcode_table.json an instruction belongs to (`none` never happens: Laws/PerInstr.lean). -/
def Instr.row? (i : Instr) : Option OpcodeRow := opcodeTable.find? (fun r => r.mnemonic = i.mnemonic)

/-- The class of an instruction's byte (30_encoding.md R53). -/
def Instr.byteClass : Instr → ByteClass
  | .data _ => .data
  | .noteOff _ => .channelStatus
  | .noteOn _ => .channelStatus
  | .noteAftertouch _ => .channelStatus
  | .controlChange _ => .channelStatus
  | .programChange _ => .channelStatus
  | .channelAftertouch _ => .channelStatus
  | .pitchBend _ => .channelStatus
  | .sysexStart => .sysexStart
  | .sysCommonF1 => .otherSystemCommon
  | .sysCommonF2 => .otherSystemCommon
  | .sysCommonF3 => .otherSystemCommon
  | .sysCommonF4 => .otherSystemCommon
  | .sysCommonF5 => .otherSystemCommon
  | .sysCommonF6 => .otherSystemCommon
  | .eox => .eox
  | .realtimeF8 => .realTime
  | .realtimeF9 => .realTime
  | .realtimeFA => .realTime
  | .realtimeFB => .realTime
  | .realtimeFC => .realTime
  | .realtimeFD => .realTime
  | .realtimeFE => .realTime
  | .realtimeFF => .realTime

/-- The byte the hardware is offered for an instruction given as a table word: every instruction is one byte, bit 0
the least significant; the bits above `nbits` are 0 (DESIGN CHOICE for widths other than 8, which the table does not
have, log 14, safe). -/
def tableByte (nbits w : Nat) : Byte := BitVec.ofNat 8 (w % 2 ^ nbits)

/-- The instruction the decoder reads from a table word of `nbits` bits. -/
def decodeTableWord (nbits w : Nat) : Option Instr :=
  match decode [tableByte nbits w] with
  | .ok i _ => some i
  | .rejected _ => none

end Sys2Proof
end

