-- ==== Sys2Proof/Machine/State.lean ====
section
/-! DEFINITION. The decoder's registers (10_state.md R13), what the host drives at the coming clock edges, the reset
values (R28), and the reasons a step could stop (none but "not modelled", which no arm uses). -/

namespace Sys2Proof.Machine

/-- The 8 lines `in_byte` as the rising edge samples them: a byte stable around the edge, or an unstable one
(70_reset_and_hazards.md R132), whose value is free. -/
inductive InByte where
  | stable (b : Byte)
  | unstable
  deriving DecidableEq, Repr

/-- The input pins at one rising edge of `clk` (20_memory.md R33). -/
structure Pins where
  rst      : Bool
  in_valid : Bool
  in_byte  : InByte
  deriving DecidableEq, Repr

/-- The machine. The first nine fields are the registers of 10_state.md R13, under the spec's names and at its widths
(a 1-bit register is a Bool), and there is no other register. The last two are the MODEL's own: the inputs are no state
of the decoder (R27), but a step has no argument that could carry them. -/
structure State where
  /-- a status is held (R14) -/
  st_v        : Bool
  /-- the held status byte; `0xF0` is "skipping SysEx" (R14, R26) -/
  st          : Byte
  /-- a first data byte is buffered (R16) -/
  pd_v        : Bool
  /-- the buffered first data byte (R16) -/
  pd          : Data7
  /-- the message port offers a message in this cycle (R17, 20_memory.md R40) -/
  msg_valid   : Bool
  /-- kind code of the last delivered message (30_encoding.md R67) -/
  msg_kind    : BitVec 3
  /-- channel of the last delivered message (R63) -/
  msg_channel : BitVec 5
  /-- first field of the last delivered message (R67) -/
  msg_p1      : Data7
  /-- second field of the last delivered message (R67) -/
  msg_p2      : BitVec 14
  /-- the pins at the coming rising edges, soonest first; past its end the host offers nothing (DESIGN CHOICE, log 1) -/
  pins        : List Pins
  /-- how many unstable bytes have been sampled: the argument of `Config.unstableByte` (DESIGN CHOICE, log 2) -/
  unstable_draws : Nat
  deriving DecidableEq, Repr

/-- Reasons the machine stops with a fault. There is none: "The decoder raises no exception and has no fatal error"
(60_exceptions.md R109). Nobody raises one; safe, since nothing can be (log 15). -/
inductive Fault where
  deriving DecidableEq, Repr

/-- Reasons a step has no meaning. -/
inductive Refusal where
  /-- Raised by an arm of `exec` for an instruction without a meaning yet; no arm raises it any more (safe). -/
  | notModelled (mnemonic : String)
  deriving DecidableEq, Repr

/-- The machine right after reset (10_state.md R28). The values of `st`, `pd` and the `msg_` fields are the spec's
decisions D6 and D7. `pins` (the host has offered nothing) and `unstable_draws` are the model's own fields
(DESIGN CHOICE, log 3, safe: no statement rests on them). -/
def State.reset : State where
  st_v := false
  st := 0x00#8
  pd_v := false
  pd := 0#7
  msg_valid := false
  msg_kind := 0#3
  msg_channel := 0#5
  msg_p1 := 0#7
  msg_p2 := 0#14
  pins := []
  unstable_draws := 0

end Sys2Proof.Machine
end

