-- ==== Sys2Proof/Machine/Operands.lean ====
section
/-! DEFINITION. The operand forms: how a message's fields are put together from the held status and the data bytes
(30_encoding.md section 4), and the classification helpers (42_synthesizer.md section 1). Pure combinational logic. -/

namespace Sys2Proof.Machine

/-- The answers of the source's `requiredDataBytes`, `{0,1,2,unsupported}` (42_synthesizer.md R94). -/
inductive DataCount where
  | zero
  | one
  | two
  | unsupported
  deriving DecidableEq, Repr

/-- `req(s)`, the number of data bytes status `s` requires (R94). `zero` is never returned. -/
def req (s : Byte) : DataCount :=
  if upperNibble s = 0x8#4 then .two
  else if upperNibble s = 0x9#4 then .two
  else if upperNibble s = 0xA#4 then .two
  else if upperNibble s = 0xB#4 then .two
  else if upperNibble s = 0xE#4 then .two
  else if upperNibble s = 0xC#4 then .one
  else if upperNibble s = 0xD#4 then .one
  else .unsupported

/-- `supportsRunningStatus(s)`: true for 0x80–0xEF (R95). -/
def supportsRunningStatus (s : Byte) : Bool := 0x80#8 ≤ s && s ≤ 0xEF#8

/-- The channel of a status byte, 1 to 16: `zext_5(st[3:0]) + 1` (30_encoding.md R63). -/
def channelOf (s : Byte) : BitVec 5 := (channelNibble s).setWidth 5 + 1#5

/-- The Pitch Bend value: `d1` holds the low 7 bits, `d2` the high 7 (30_encoding.md R64, 20_memory.md R43). -/
def pitchValue (d1 d2 : Data7) : BitVec 14 := (d2.setWidth 14 <<< 7) ||| d1.setWidth 14

/-- `synth(s, d1, d2)` (42_synthesizer.md R97, R99–R106): the message of a complete (status, data bytes) tuple, or `none`
for an unknown family or an absent required byte (R98). A `d2` given to a one-data-byte kind is ignored (R106). -/
def synth (s : Byte) (d1 : Data7) (d2 : Option Data7) : Option Message :=
  if upperNibble s = 0x8#4 then d2.map (.noteOff (channelOf s) d1)
  else if upperNibble s = 0x9#4 then d2.map (.noteOn (channelOf s) d1)
  else if upperNibble s = 0xA#4 then d2.map (.noteAftertouch (channelOf s) d1)
  else if upperNibble s = 0xB#4 then d2.map (.controlChange (channelOf s) d1)
  else if upperNibble s = 0xC#4 then some (.programChange (channelOf s) d1)
  else if upperNibble s = 0xD#4 then some (.channelAftertouch (channelOf s) d1)
  else if upperNibble s = 0xE#4 then d2.map (fun v => .pitchBend (channelOf s) (pitchValue d1 v))
  else none

/-- The four field registers of the output port. -/
structure PortFields where
  kind    : BitVec 3
  channel : BitVec 5
  p1      : Data7
  p2      : BitVec 14
  deriving DecidableEq, Repr

/-- `enc(m)`: the output encoding of a message (30_encoding.md R67). A field a kind lacks is 0. -/
def portOf : Message → PortFields
  | .noteOff ch note velocity => ⟨0, ch, note, velocity.setWidth 14⟩
  | .noteOn ch note velocity => ⟨1, ch, note, velocity.setWidth 14⟩
  | .noteAftertouch ch note velocity => ⟨2, ch, note, velocity.setWidth 14⟩
  | .controlChange ch control value => ⟨3, ch, control, value.setWidth 14⟩
  | .programChange ch program => ⟨4, ch, program, 0⟩
  | .channelAftertouch ch velocity => ⟨5, ch, velocity, 0⟩
  | .pitchBend ch value => ⟨6, ch, 0, value⟩

/-- The message a consumer reads from the field registers (the inverse of `portOf` on the table of R67). Kind 7 is never
produced and reads as no message. -/
def messageOf (p : PortFields) : Option Message :=
  if p.kind = 0#3 then some (.noteOff p.channel p.p1 (p.p2.setWidth 7))
  else if p.kind = 1#3 then some (.noteOn p.channel p.p1 (p.p2.setWidth 7))
  else if p.kind = 2#3 then some (.noteAftertouch p.channel p.p1 (p.p2.setWidth 7))
  else if p.kind = 3#3 then some (.controlChange p.channel p.p1 (p.p2.setWidth 7))
  else if p.kind = 4#3 then some (.programChange p.channel p.p1)
  else if p.kind = 5#3 then some (.channelAftertouch p.channel p.p1)
  else if p.kind = 6#3 then some (.pitchBend p.channel p.p2)
  else none

end Sys2Proof.Machine
end

