-- ==== Sys2Proof/Machine/Flags.lean ====
section
/-! DEFINITION. The decoder's only flags are the presence bits `st_v` and `pd_v` (10_state.md R23). Here is every
test made of them: the options they encode (00_scope.md R10), the reachable-state invariant `INV` and the mode tests
(10_state.md R20–R22, 40_step_and_nondata.md R72). -/

namespace Sys2Proof.Machine

/-- The source's `status`: `(st_v, st)` as an option (10_state.md R14). -/
def State.status (s : State) : Option Byte := if s.st_v then some s.st else none

/-- The source's `pending_first_byte`: `(pd_v, pd)` as an option (10_state.md R16). -/
def State.pending (s : State) : Option Data7 := if s.pd_v then some s.pd else none

/-- `INV(s)` (40_step_and_nondata.md R72; 10_state.md R20, R21). -/
def inv (s : State) : Bool :=
  (!s.st_v || (0x80#8 ≤ s.st && s.st ≤ 0xEF#8) || s.st = 0xF0#8) &&
  (!s.pd_v || (s.st_v && req s.st = .two))

/-- EMPTY: `st_v = 0` and `pd_v = 0` (00_scope.md R11). -/
def isEmpty (s : State) : Bool := !s.st_v && !s.pd_v

/-- Mode `SysEx` of 10_state.md R22, read off the registers (for states outside `INV`: DEDUCED, log 10). -/
def isSysex (s : State) : Bool := s.st_v && s.st = 0xF0#8 && !s.pd_v

/-- Mode `Collect` of 10_state.md R22, read off the registers (for states outside `INV`: DEDUCED, log 10). -/
def isCollect (s : State) : Bool := s.st_v && s.pd_v && req s.st = .two

end Sys2Proof.Machine
end

