-- ==== Sys2Proof/Machine/Ops.lean ====
section
/-! DEFINITION. The named operations over the registers and the ports. The decoder has no exception to take and none to
return from (60_exceptions.md R109, R117); the one recovery operation, `resync`, stands in that place. It has no memory
(20_memory.md R32). -/

namespace Sys2Proof.Machine

/-- `resync()` (60_exceptions.md R111): `st_v <- 0; pd_v <- 0`. It saves nothing and transfers control nowhere (R117). -/
def resync (s : State) : State := { s with st_v := false, pd_v := false }

/-- `norm(s)` (40_step_and_nondata.md R72): a state outside `INV` is taken as EMPTY. The bits of `st` and `pd` stay
(DEDUCED, log 6; states outside `INV`: log 5). -/
def norm (s : State) : State := if inv s then s else resync s

/-- Hold status `b` and drop a buffered data byte (40_step_and_nondata.md R76, R77). `pd` keeps its bits. -/
def loadStatus (b : Byte) (s : State) : State := { s with st_v := true, st := b, pd_v := false }

/-- Buffer a first data byte (41_data_bytes.md R89). -/
def bufferFirst (v : Data7) (s : State) : State := { s with pd_v := true, pd := v }

/-- Empty the buffer, keep the status: what a delivery leaves (41_data_bytes.md R88, R90, R91). -/
def clearPending (s : State) : State := { s with pd_v := false }

/-- Put a message on the port (20_memory.md R40, 30_encoding.md R67). -/
def emit (m : Message) (s : State) : State :=
  { s with
    msg_valid := true
    msg_kind := (portOf m).kind
    msg_channel := (portOf m).channel
    msg_p1 := (portOf m).p1
    msg_p2 := (portOf m).p2 }

/-- A step without `emit`: `msg_valid <- 0`, the four field registers hold (20_memory.md R40, R42). -/
def noMessage (s : State) : State := { s with msg_valid := false }

/-- The edge's port write (20_memory.md R34): `emit` if the step answered a message, else `msg_valid <- 0`. -/
def deliver : State × Option Message → State
  | (s, some m) => emit m s
  | (s, none) => noMessage s

/-- A reset edge (70_reset_and_hazards.md R125, R127): every register takes its reset value of 10_state.md R28; what the
host drives later stays. -/
def resetRegisters (s : State) : State := { State.reset with pins := s.pins, unstable_draws := s.unstable_draws }

/-- An idle edge (40_step_and_nondata.md R83): the decode state is unchanged, `msg_valid <- 0`. -/
def idleEdge (s : State) : State := noMessage s

/-- `in_ready` is 1 in every cycle (20_memory.md R35). -/
def State.in_ready (_ : State) : Bool := true

/-- The field registers of the port. -/
def State.port (s : State) : PortFields := ⟨s.msg_kind, s.msg_channel, s.msg_p1, s.msg_p2⟩

/-- What the consumer takes in this cycle: nothing while `msg_valid = 0` (20_memory.md R40–R42). -/
def State.portMessage (s : State) : Option Message := if s.msg_valid then messageOf s.port else none

/-- `attachSource` (20_memory.md R52): the host drives the pins from another source from now on; no register changes. -/
def attachSource (source : List Pins) (s : State) : State := { s with pins := source }

/-- What a rising edge does, with the pins of that edge taken off the list. -/
inductive Edge where
  | reset (s : State)
  | idle (s : State)
  | accept (b : Byte) (s : State)
  deriving DecidableEq, Repr

/-- The byte the edge takes: the stable one, or a free value (70_reset_and_hazards.md R132, log 2). Two
instances, or two runs, with equal `unstable_draws` take the SAME free value (DESIGN CHOICE, log 2, unsafe for a claim that
compares them). -/
def sampleByte (x : InByte) (s : State) : Edge :=
  match x with
  | .stable b => .accept b s
  | .unstable => .accept (Config.unstableByte s.unstable_draws) { s with unstable_draws := s.unstable_draws + 1 }

/-- What one edge does with the pins `p` (20_memory.md R34): reset wins over a byte (60_exceptions.md R115), a byte is
accepted when `in_valid = 1`, and `in_byte` is not read otherwise. -/
def edgeOf (p : Pins) (s : State) : Edge :=
  if p.rst then .reset s
  else if p.in_valid then sampleByte p.in_byte s
  else .idle s

/-- The coming edge. Past the end of the list the host offers nothing: `rst = 0`, `in_valid = 0`
(DESIGN CHOICE, log 1, safe). -/
def nextEdge (s : State) : Edge :=
  match s.pins with
  | [] => .idle s
  | p :: rest => edgeOf p { s with pins := rest }

/-- Present byte `b` for acceptance at the very next edge, before whatever the host offers after it
(DESIGN CHOICE, log 13). -/
def presentByte (b : Byte) (s : State) : State := { s with pins := ⟨false, true, .stable b⟩ :: s.pins }

end Sys2Proof.Machine
end

