-- ==== Sys2Proof/Machine/Data.lean ====
section
/-! DEFINITION. Data bytes: stray data, SysEx payload, collection, delivery, running status (41_data_bytes.md). -/

namespace Sys2Proof.Machine

/-- `stray(s, b) = (EMPTY, none)` (R86). -/
def stray (s : State) : State × Option Message := (resync s, none)

/-- `sysex_payload(s, b) = (s, none)` (R87): the payload is opaque. -/
def sysexPayload (s : State) : State × Option Message := (s, none)

/-- What follows the synthesizer: deliver and keep the running status (R91), or resynchronize if it answered `none`
(R93; unreachable on a normalized state, checked as the source requires). -/
def complete (s : State) : Option Message → State × Option Message
  | some m => (clearPending s, some m)
  | none => (resync s, none)

/-- `one_byte(s, b)` (R88). -/
def oneByte (s : State) (v : Data7) : State × Option Message := complete s (synth s.st v none)

/-- `first_of_two(s, b)` (R89). -/
def firstOfTwo (s : State) (v : Data7) : State × Option Message := (bufferFirst v s, none)

/-- `second_of_two(s, b)` (R90): `pd` is the first field, `v` the second. -/
def secondOfTwo (s : State) (v : Data7) : State × Option Message := complete s (synth s.st s.pd (some v))

/-- The dispatch of R85 on a normalized state. -/
def dataNormalized (s : State) (v : Data7) : State × Option Message :=
  if s.st_v = false then stray s
  else if s.st = 0xF0#8 then sysexPayload s
  else if req s.st = .one then oneByte s v
  else if s.pd_v = false then firstOfTwo s v
  else secondOfTwo s v

/-- `data(norm(s), b)` (40_step_and_nondata.md R71, R72; 41_data_bytes.md R85). -/
def dataByte (s : State) (v : Data7) : State × Option Message := dataNormalized (norm s) v

def execData (v : Data7) (s : State) : Host.Outcome State Fault Refusal := .next (deliver (dataByte s v))

end Sys2Proof.Machine
end

