-- ==== Sys2Proof/Machine/Realtime.lean ====
section
/-! DEFINITION. System Real-Time bytes, the interleaver (40_step_and_nondata.md section 2): absorbed in every mode, 0xF8
(R75) and 0xFF (R74) like the rest. The decode state is unchanged; `msg_valid` falls, as on every step without `emit`
(20_memory.md R34, R40; DEDUCED, log 7). -/

namespace Sys2Proof.Machine

/-- `realtime(s, b) = (s, none)` (R73). -/
def realtime (s : State) : State × Option Message := (s, none)

def execRealtimeF8 (s : State) : Host.Outcome State Fault Refusal := .next (deliver (realtime s))
def execRealtimeF9 (s : State) : Host.Outcome State Fault Refusal := .next (deliver (realtime s))
def execRealtimeFA (s : State) : Host.Outcome State Fault Refusal := .next (deliver (realtime s))
def execRealtimeFB (s : State) : Host.Outcome State Fault Refusal := .next (deliver (realtime s))
def execRealtimeFC (s : State) : Host.Outcome State Fault Refusal := .next (deliver (realtime s))
def execRealtimeFD (s : State) : Host.Outcome State Fault Refusal := .next (deliver (realtime s))
def execRealtimeFE (s : State) : Host.Outcome State Fault Refusal := .next (deliver (realtime s))
def execRealtimeFF (s : State) : Host.Outcome State Fault Refusal := .next (deliver (realtime s))

end Sys2Proof.Machine
end

