-- ==== Sys2Proof/Machine/Status.lean ====
section
/-! DEFINITION. Status bytes, the running-status tracker (40_step_and_nondata.md section 3). A status byte's next decode
state does not depend on the old one, and it never delivers. -/

namespace Sys2Proof.Machine

/-- `chan_status(s, b)` (R76). -/
def chanStatus (s : State) (b : Byte) : State × Option Message := (loadStatus b s, none)

/-- `sysex_start(s, b)` (R77). -/
def sysexStart (s : State) : State × Option Message := (loadStatus 0xF0#8 s, none)

/-- `eox(s, b)` (R78): EMPTY in every mode. -/
def eox (s : State) : State × Option Message := (resync s, none)

/-- `sys_common(s, b)` (R79): resynchronize at once (log 11). -/
def sysCommon (s : State) : State × Option Message := (resync s, none)

def execNoteOff (c : BitVec 4) (s : State) : Host.Outcome State Fault Refusal :=
  .next (deliver (chanStatus s (encodeByte (.noteOff c))))

def execNoteOn (c : BitVec 4) (s : State) : Host.Outcome State Fault Refusal :=
  .next (deliver (chanStatus s (encodeByte (.noteOn c))))

def execNoteAftertouch (c : BitVec 4) (s : State) : Host.Outcome State Fault Refusal :=
  .next (deliver (chanStatus s (encodeByte (.noteAftertouch c))))

def execControlChange (c : BitVec 4) (s : State) : Host.Outcome State Fault Refusal :=
  .next (deliver (chanStatus s (encodeByte (.controlChange c))))

def execProgramChange (c : BitVec 4) (s : State) : Host.Outcome State Fault Refusal :=
  .next (deliver (chanStatus s (encodeByte (.programChange c))))

def execChannelAftertouch (c : BitVec 4) (s : State) : Host.Outcome State Fault Refusal :=
  .next (deliver (chanStatus s (encodeByte (.channelAftertouch c))))

def execPitchBend (c : BitVec 4) (s : State) : Host.Outcome State Fault Refusal :=
  .next (deliver (chanStatus s (encodeByte (.pitchBend c))))

def execSysexStart (s : State) : Host.Outcome State Fault Refusal := .next (deliver (sysexStart s))

def execEox (s : State) : Host.Outcome State Fault Refusal := .next (deliver (eox s))

def execSysCommonF1 (s : State) : Host.Outcome State Fault Refusal := .next (deliver (sysCommon s))
def execSysCommonF2 (s : State) : Host.Outcome State Fault Refusal := .next (deliver (sysCommon s))
def execSysCommonF3 (s : State) : Host.Outcome State Fault Refusal := .next (deliver (sysCommon s))
def execSysCommonF4 (s : State) : Host.Outcome State Fault Refusal := .next (deliver (sysCommon s))
def execSysCommonF5 (s : State) : Host.Outcome State Fault Refusal := .next (deliver (sysCommon s))
def execSysCommonF6 (s : State) : Host.Outcome State Fault Refusal := .next (deliver (sysCommon s))

end Sys2Proof.Machine
end

