-- ==== Sys2Proof/Machine/Dispatch.lean ====
section
/-! DEFINITION. The meaning of one accepted byte: one arm per row of spec/opcode_table.json. -/

namespace Sys2Proof.Machine

def exec (i : Instr) (s : State) : Host.Outcome State Fault Refusal :=
  match i with
  | .data v => Sys2Proof.Machine.execData v s
  | .noteOff c => Sys2Proof.Machine.execNoteOff c s
  | .noteOn c => Sys2Proof.Machine.execNoteOn c s
  | .noteAftertouch c => Sys2Proof.Machine.execNoteAftertouch c s
  | .controlChange c => Sys2Proof.Machine.execControlChange c s
  | .programChange c => Sys2Proof.Machine.execProgramChange c s
  | .channelAftertouch c => Sys2Proof.Machine.execChannelAftertouch c s
  | .pitchBend c => Sys2Proof.Machine.execPitchBend c s
  | .sysexStart => Sys2Proof.Machine.execSysexStart s
  | .sysCommonF1 => Sys2Proof.Machine.execSysCommonF1 s
  | .sysCommonF2 => Sys2Proof.Machine.execSysCommonF2 s
  | .sysCommonF3 => Sys2Proof.Machine.execSysCommonF3 s
  | .sysCommonF4 => Sys2Proof.Machine.execSysCommonF4 s
  | .sysCommonF5 => Sys2Proof.Machine.execSysCommonF5 s
  | .sysCommonF6 => Sys2Proof.Machine.execSysCommonF6 s
  | .eox => Sys2Proof.Machine.execEox s
  | .realtimeF8 => Sys2Proof.Machine.execRealtimeF8 s
  | .realtimeF9 => Sys2Proof.Machine.execRealtimeF9 s
  | .realtimeFA => Sys2Proof.Machine.execRealtimeFA s
  | .realtimeFB => Sys2Proof.Machine.execRealtimeFB s
  | .realtimeFC => Sys2Proof.Machine.execRealtimeFC s
  | .realtimeFD => Sys2Proof.Machine.execRealtimeFD s
  | .realtimeFE => Sys2Proof.Machine.execRealtimeFE s
  | .realtimeFF => Sys2Proof.Machine.execRealtimeFF s

end Sys2Proof.Machine
end

