-- ==== Sys2Proof/Machine/Step.lean ====
section
/-! DEFINITION. One step is one rising edge of `clk` (20_memory.md R34). -/

namespace Sys2Proof.Machine

/-- One rising edge: reset, idle, or one accepted byte run by `exec`. -/
def step (s : State) : Host.Outcome State Fault Refusal :=
  match nextEdge s with
  | .reset s' => .next (resetRegisters s')
  | .idle s' => .next (idleEdge s')
  | .accept b s' => exec (decodeByte b) s'

/-- The machine with the byte of a table word presented at its next edge (a program is the byte stream the host
presents: log 13). -/
def State.withFetchWord (s : State) (nbits w : Nat) : State := presentByte (tableByte nbits w) s

end Sys2Proof.Machine
end

