-- ==== Sys2Proof/Machine/ByteStep.lean ====
section
/-! DEFINITION. The step as the spec writes it, over the byte's value (40_step_and_nondata.md R71), beside `exec`, which
goes through the decoded instruction; and a run over a byte list (70_reset_and_hazards.md R140). -/

namespace Sys2Proof.Machine

/-- `step(s, b)` with its tests in the order of R71. -/
def stepByte (s : State) (b : Byte) : State × Option Message :=
  if 0xF8#8 ≤ b then realtime s
  else if b.getLsbD 7 then
    if b ≤ 0xEF#8 then chanStatus s b
    else if b = 0xF0#8 then sysexStart s
    else if b = 0xF7#8 then eox s
    else sysCommon s
  else dataByte s (dataValue b)

/-- The machine after the edge that accepts `b`: the byte's step and the port write (20_memory.md R34). -/
def acceptByte (s : State) (b : Byte) : State := deliver (stepByte s b)

/-- `run : State -> List Byte -> State × List Message`, the fold of the step (R139, R140): the final state and the
messages delivered, in order. -/
def runBytes (s : State) : List Byte → State × List Message
  | [] => (s, [])
  | b :: rest =>
    let later := runBytes (acceptByte s b) rest
    (later.1, (stepByte s b).2.toList ++ later.2)

end Sys2Proof.Machine
end

