-- ==== Sys2Proof/Machine/CallView.lean ====
section
/-! DEFINITION. The source's call-based `decode()`, the second view of the same behaviour (00_scope.md R5, 20_memory.md
R36, R37, 40_step_and_nondata.md R84). It is no part of the block: the block is `step`. It is here so that R84 can be
stated. The spec gives the algorithm only in the passages it quotes; the whole was put together from them (DEDUCED, log 9,
unsafe for statements about the source; nothing else rests on it). Step numbers are the source's §4.1 steps as the spec
cites them. -/

namespace Sys2Proof.Machine

/-- "Decoder state (persists across calls): `status` ... `pending_first_byte`" (10_state.md R13, R22). -/
structure CallState where
  status  : Option Byte
  pending : Option Data7
  deriving DecidableEq, Repr

/-- What one call leaves: the state, the bytes it did not consume, and the message it returned, if any. -/
structure CallResult where
  state : CallState
  rest  : List Byte
  out   : Option Message
  deriving DecidableEq, Repr

/-- The source's resynchronization: clear `status` and the buffered data byte (60_exceptions.md R111). -/
def callEmpty : CallState := ⟨none, none⟩

/-- Step 5, the skip scan over what can be peeked: EOX is consumed and ends the block; any other byte with the high bit set
ends it without being consumed; payload is consumed; out of bytes, the scan resumes on the next call (R77, R78, R84). -/
def sysexScan (cs : CallState) : List Byte → CallResult
  | [] => ⟨cs, [], none⟩
  | b :: rest =>
    if b = 0xF7#8 then ⟨callEmpty, rest, none⟩
    else if b.getLsbD 7 then ⟨callEmpty, b :: rest, none⟩
    else sysexScan cs rest

/-- §4.2 and step 8: the message, with the status kept and the buffer empty; or, on a failure, a resynchronization
(41_data_bytes.md R91, R93). -/
def callFinish (st : Byte) (rest : List Byte) : Option Message → CallResult
  | some m => ⟨⟨some st, none⟩, rest, some m⟩
  | none => ⟨callEmpty, rest, none⟩

/-- Steps 3 and 7: collect the data bytes the channel status `st` still needs from what can be peeked. Real-Time bytes are
consumed without effect (step 1, C3); a status byte is left unconsumed and the call resynchronizes (R84 case 2); out of
bytes, the buffer persists. -/
def callCollect (st : Byte) : Option Data7 → List Byte → CallResult
  | pending, [] => ⟨⟨some st, pending⟩, [], none⟩
  | pending, b :: rest =>
    if 0xF8#8 ≤ b then callCollect st pending rest
    else if b.getLsbD 7 then ⟨callEmpty, b :: rest, none⟩
    else match pending with
      | some d1 => callFinish st rest (synth st d1 (some (dataValue b)))
      | none =>
        if req st = .one then callFinish st rest (synth st (dataValue b) none)
        else callCollect st (some (dataValue b)) rest

/-- A status byte read first in a call (step 2: it becomes the status and clears the buffer), then step 5 for 0xF0, step 7
for a channel status, and for 0xF1–0xF7 steps 6 and 8 (R78, R79). -/
def callStatus (b : Byte) (rest : List Byte) : CallResult :=
  if b = 0xF0#8 then sysexScan ⟨some b, none⟩ rest
  else if b ≤ 0xEF#8 then callCollect b none rest
  else ⟨callEmpty, rest, none⟩

/-- A data byte `b` read first in a call: stray with no status (step 4); buffered "if no byte is currently buffered" before
the scan resumes (steps 3 and 5, R84 case 4); otherwise collected (steps 3 and 7). -/
def callData (cs : CallState) (b : Byte) (rest : List Byte) : CallResult :=
  match cs.status with
  | none => ⟨callEmpty, rest, none⟩
  | some st =>
    if st = 0xF0#8 then sysexScan ⟨some st, cs.pending.or (some (dataValue b))⟩ rest
    else callCollect st cs.pending (b :: rest)

/-- One call of `decode()` with the bytes the source has available: at most one message (00_scope.md R6). With none
available it returns at once, unchanged (40 R83); a Real-Time byte read first is consumed without effect (step 1). -/
def decodeCall (cs : CallState) : List Byte → CallResult
  | [] => ⟨cs, [], none⟩
  | b :: rest =>
    if 0xF8#8 ≤ b then ⟨cs, rest, none⟩
    else if b.getLsbD 7 then callStatus b rest
    else callData cs b rest

/-- A run of calls: before each call the byte source has received the next list of bytes, behind those still unread.
Answers the final state, the unread bytes and the messages returned, in order. -/
def runCalls (cs : CallState) (unread : List Byte) : List (List Byte) → CallState × List Byte × List Message
  | [] => (cs, unread, [])
  | arrived :: more =>
    let r := decodeCall cs (unread ++ arrived)
    let later := runCalls r.state r.rest more
    (later.1, later.2.1, r.out.toList ++ later.2.2)

/-- The source's two fields as the registers hold them (10_state.md R13, R22). -/
def callStateOf (s : State) : CallState := ⟨s.status, s.pending⟩

end Sys2Proof.Machine
end

