-- ==== Sys2Proof/Machine/Instances.lean ====
section
/-! DEFINITION. Several decoders in one system (10_state.md R31, 60_exceptions.md R122): any number of instances, each
with its own registers and its own ports, none sharing state. A list of machines, of which one takes an edge at a time
(DESIGN CHOICE, log 12, safe: the instances have no order among them). The bytes that two instances sample unstable are not
independent here (DESIGN CHOICE, log 2): `Config.unstableByte` is one function, so instances with equal `unstable_draws` draw
the same byte. That is unsafe for a claim that compares such draws. -/

namespace Sys2Proof.Machine

/-- A system of `N_INSTANCES` decoders. -/
abbrev System := List State

/-- Instance `k` takes one edge of its own; the others keep their state, their `unstable_draws` among it (an unstable
byte comes from the free function all instances share: DESIGN CHOICE, log 2). An instance that stopped would leave the
system as it was (none does: 60_exceptions.md R109). -/
def stepInstance (k : Nat) (sys : System) : System :=
  match sys[k]? with
  | none => sys
  | some s =>
    match step s with
    | .next t => sys.set k t
    | .fault _ => sys
    | .refused _ => sys

end Sys2Proof.Machine
end

