-- ==== Sys2Proof/Machine/Labels.lean ====
section
/-! DEFINITION. The outcome label of a step (60_exceptions.md section 1). It is no signal of the hardware (R114): a
function of the state before the step and of what the step takes. -/

namespace Sys2Proof.Machine

/-- The labels of R110, in the order of their codes. -/
inductive Label where
  | delivered
  | idle
  | absorbRt
  | statusLoaded
  | sysexStart
  | dataBuffered
  | sysexPayload
  | sysexEnd
  | invStrayData
  | invLoneEox
  | invUnsupportedStatus
  | invInterrupted
  | invSynthFail
  deriving DecidableEq, Repr

/-- The code of a label (R110). -/
def labelCode : Label → Nat
  | .delivered => 0
  | .idle => 1
  | .absorbRt => 2
  | .statusLoaded => 3
  | .sysexStart => 4
  | .dataBuffered => 5
  | .sysexPayload => 6
  | .sysexEnd => 7
  | .invStrayData => 8
  | .invLoneEox => 9
  | .invUnsupportedStatus => 10
  | .invInterrupted => 11
  | .invSynthFail => 12

/-- The source's result type `{Delivered(Message), Incomplete, Invalid}` (R110). -/
inductive SourceClass where
  | delivered
  | incomplete
  | invalid
  deriving DecidableEq, Repr

/-- The source class of a label; for `ABSORB_RT` and `SYSEX_END` the source gives none (R110). -/
def sourceClass : Label → Option SourceClass
  | .delivered => some .delivered
  | .idle => some .incomplete
  | .absorbRt => none
  | .statusLoaded => some .incomplete
  | .sysexStart => some .incomplete
  | .dataBuffered => some .incomplete
  | .sysexPayload => some .incomplete
  | .sysexEnd => none
  | .invStrayData => some .invalid
  | .invLoneEox => some .invalid
  | .invUnsupportedStatus => some .invalid
  | .invInterrupted => some .invalid
  | .invSynthFail => some .invalid

/-- What a step takes: no byte (an idle cycle) or one accepted byte (00_scope.md R11). -/
inductive StepInput where
  | idle
  | byte (b : Byte)
  deriving DecidableEq, Repr

/-- The synthesizer's answer on the data path, where R85 calls it; `none` where the path does not reach it. -/
def synthesis (s : State) (v : Data7) : Option (Option Message) :=
  if req s.st = .one then some (synth s.st v none)
  else if s.pd_v then some (synth s.st s.pd (some v))
  else none

/-- Items 9 to 13 of R112, on the normalized state. -/
def dataLabel (s : State) (v : Data7) : Label :=
  if s.st_v = false then .invStrayData
  else if s.st = 0xF0#8 then .sysexPayload
  else match synthesis s v with
    | some none => .invSynthFail
    | some (some _) => .delivered
    | none => .dataBuffered

/-- The first label of R112 whose condition holds; `s` is the state before the step. A reset edge is no step and has no
label. Outside `INV` the mode tests read the registers as R22's table gives them (DEDUCED, log 10). -/
def label (s : State) : StepInput → Label
  | .idle => .idle
  | .byte b =>
    if 0xF8#8 ≤ b then .absorbRt
    else if b = 0xF7#8 ∧ isSysex s then .sysexEnd
    else if b = 0xF7#8 then .invLoneEox
    else if 0xF1#8 ≤ b ∧ b ≤ 0xF6#8 then .invUnsupportedStatus
    else if 0x80#8 ≤ b ∧ b ≤ 0xF0#8 ∧ (isCollect s ∨ isSysex s) then .invInterrupted
    else if 0x80#8 ≤ b ∧ b ≤ 0xEF#8 then .statusLoaded
    else if b = 0xF0#8 then .sysexStart
    else dataLabel (norm s) (dataValue b)

end Sys2Proof.Machine
end

