-- ==== Sys2Proof/Machine/Modes.lean ====
section
/-! DEFINITION. The typed view of the reachable states: four modes (10_state.md R22), and the next-state table over them
(40_step_and_nondata.md R81), written from the table alone. -/

namespace Sys2Proof.Machine

/-- The modes of R22. They are decode states, not privilege modes (60_exceptions.md R119). -/
inductive Mode where
  | idle
  | running (status : Byte)
  | collect (status : Byte) (first : Data7)
  | sysex
  deriving DecidableEq, Repr

/-- The mode of a register state; `none` outside `INV`, where R22 gives no mode. -/
def modeOf (s : State) : Option Mode :=
  if inv s = false then none
  else if s.st_v = false then some .idle
  else if s.st = 0xF0#8 then some .sysex
  else if s.pd_v then some (.collect s.st s.pd)
  else some (.running s.st)

/-- The columns of the table that do not depend on the mode, and Real-Time, which keeps it. -/
def modeAfterStatus (m : Mode) (b : Byte) : Mode :=
  match byteClass b with
  | .realTime => m
  | .data => m
  | .channelStatus => .running b
  | .sysexStart => .sysex
  | .otherSystemCommon => .idle
  | .eox => .idle

/-- The data column of the table: the only one that delivers. -/
def modeAfterData (m : Mode) (d : Data7) : Mode × Option Message :=
  match m with
  | .idle => (.idle, none)
  | .running s => if req s = .one then (.running s, synth s d none) else (.collect s d, none)
  | .collect s d1 => (.running s, synth s d1 (some d))
  | .sysex => (.sysex, none)

/-- The table of R81. -/
def modeStep (m : Mode) (b : Byte) : Mode × Option Message :=
  if byteClass b = .data then modeAfterData m (dataValue b) else (modeAfterStatus m b, none)

/-- A run over the modes: the final mode and the messages. -/
def runModes (m : Mode) : List Byte → Mode × List Message
  | [] => (m, [])
  | b :: rest =>
    let later := runModes (modeStep m b).1 rest
    (later.1, (modeStep m b).2.toList ++ later.2)

end Sys2Proof.Machine
end

