-- ==== Sys2Proof/Machine/Run.lean ====
section
/-! DEFINITION. A run of the machine over clock edges: the state after `k` edges and the messages its port offered
(70_reset_and_hazards.md R139). A run may be cut at any edge, and the cut is no event of the hardware. -/

namespace Sys2Proof.Machine

/-- `k` edges: the final state and, in order, what the port offered in the cycle after each of them. A step that stopped
would end the run there (none does: 60_exceptions.md R109). -/
def runEdges : Nat → State → State × List Message
  | 0, s => (s, [])
  | k + 1, s =>
    match step s with
    | .next t =>
      let later := runEdges k t
      (later.1, t.portMessage.toList ++ later.2)
    | .fault _ => (s, [])
    | .refused _ => (s, [])

/-- The stable byte an edge accepts, if it accepts one (20_memory.md R34). -/
def Pins.accepted? (p : Pins) : Option Byte :=
  if p.rst then none
  else if p.in_valid then
    match p.in_byte with
    | .stable b => some b
    | .unstable => none
  else none

/-- An edge at which the host neither resets nor lets a byte be unstable: it meets the duties of 20_memory.md R51. -/
def Pins.orderly (p : Pins) : Bool :=
  !p.rst && (!p.in_valid || match p.in_byte with | .stable _ => true | .unstable => false)

end Sys2Proof.Machine
end

