-- ==== Sys2Proof/Safety.lean ====
section
/-! DEFINITION. What counts as a safe state and a safe run, in the terms claims use. The decoder has no error state
(60_exceptions.md R109): a safe state meets the decode invariant (10_state.md R18–R21) and shows on its port either the
reset fields with no message or a message in range (42_synthesizer.md R107). -/

namespace Sys2Proof.Machine

/-- The port's fields are those of a message in range, or the reset fields with `msg_valid = 0` (20_memory.md R42,
30_encoding.md R67). -/
def portInv (s : State) : Bool :=
  (match messageOf s.port with
   | some m => m.wellFormed && decide (portOf m = s.port)
   | none => false) ||
  (!s.msg_valid && decide (s.port = State.reset.port))

/-- A safe state. -/
def safe (s : State) : Bool := inv s && portInv s

/-- A run of `k` edges that never stops and passes through safe states only. -/
def safeRun : Nat → State → Bool
  | 0, s => safe s
  | k + 1, s =>
    safe s &&
      match step s with
      | .next t => safeRun k t
      | .fault _ => false
      | .refused _ => false

end Sys2Proof.Machine
end

