-- ==== Sys2Proof/Certificates/Slice0/Obligations.lean ====
section
/-! DEFINITION. The statements for the provers. Each docstring names the rule of spec/ it formalises. Where a statement
names `pins` it names the model's own carrier of the inputs (log 1): the decoder itself has no such field. -/

open Sys2Proof Sys2Proof.Machine

/-! ### Reset and the clock edge -/

/-- 10_state.md R28: every register of R13 after reset. -/
def Obligations.ResetStateHoldsTheResetValues : Prop :=
  State.reset.st_v = false ∧ State.reset.st = 0x00#8 ∧ State.reset.pd_v = false ∧ State.reset.pd = 0x00#7 ∧
  State.reset.msg_valid = false ∧ State.reset.msg_kind = 0#3 ∧ State.reset.msg_channel = 0#5 ∧
  State.reset.msg_p1 = 0#7 ∧ State.reset.msg_p2 = 0#14

/-- 70_reset_and_hazards.md R125: from every state, an edge with `rst = 1` gives every register its reset value, whatever
the other pins are, and one edge suffices: a second changes no register. The edge takes its entry off `pins` (log 1). -/
def Obligations.ResetEdgeRestoresEveryRegister : Prop :=
  ∀ (s : State) (p : Pins) (rest : List Pins), s.pins = p :: rest → p.rst = true →
    ∃ t, step s = .next t ∧
      t = { s with
        st_v := false, st := 0x00#8, pd_v := false, pd := 0x00#7, msg_valid := false, msg_kind := 0#3,
        msg_channel := 0#5, msg_p1 := 0#7, msg_p2 := 0#14, pins := rest } ∧
      ∀ (q : Pins) (more : List Pins), rest = q :: more → q.rst = true → step t = .next { t with pins := more }

/-- 70_reset_and_hazards.md R127: at an edge with `rst = 1` no byte is accepted even if `in_valid = 1` (the edge does the
same whatever byte is presented), and `in_ready` stays 1. -/
def Obligations.NoByteIsAcceptedAtAResetEdge : Prop :=
  ∀ (s t : State) (p : Pins) (v : Bool) (x : InByte) (rest : List Pins), p.rst = true → s.pins = p :: rest →
    step s = .next t →
      t.in_ready = true ∧ step { s with pins := { p with in_valid := v, in_byte := x } :: rest } = .next t

/-- 40_step_and_nondata.md R83: an idle cycle leaves the decode state unchanged and delivers no message; nothing else
changes either (20_memory.md R42). -/
def Obligations.IdleEdgeKeepsTheDecodeState : Prop :=
  ∀ (s : State) (p : Pins) (rest : List Pins), s.pins = p :: rest → p.rst = false → p.in_valid = false →
    step s = .next { s with msg_valid := false, pins := rest }

/-- The MODEL'S CHOICE (log 1): past the end of `pins` the host offers nothing, and the edge is the idle edge of
40_step_and_nondata.md R83. -/
def Obligations.EmptyPinListIsAnIdleEdge : Prop :=
  ∀ s : State, s.pins = [] → step s = .next { s with msg_valid := false }

/-- 20_memory.md R34, whole: what a rising edge does, with the byte's step as R71 writes it (`stepByte`, over the byte's
value) and the port as R40 and R67 write it. `exec` and the decoder do not occur: that the decoded instructions do the same
is what this claims. -/
def Obligations.RisingEdgeRunsTheByteStep : Prop :=
  ∀ (s : State) (p : Pins) (rest : List Pins), s.pins = p :: rest →
    (p.rst = true → step s = .next { State.reset with pins := rest, unstable_draws := s.unstable_draws }) ∧
    (p.rst = false → p.in_valid = false → step s = .next { s with msg_valid := false, pins := rest }) ∧
    (∀ b : Byte, p.rst = false → p.in_valid = true → p.in_byte = .stable b →
      (∀ m, (stepByte { s with pins := rest } b).2 = some m →
        step s = .next { (stepByte { s with pins := rest } b).1 with
          msg_valid := true, msg_kind := (portOf m).kind, msg_channel := (portOf m).channel,
          msg_p1 := (portOf m).p1, msg_p2 := (portOf m).p2 }) ∧
      ((stepByte { s with pins := rest } b).2 = none →
        step s = .next { (stepByte { s with pins := rest } b).1 with msg_valid := false }))

/-- A STEP RUNS THE DECODED INSTRUCTION (20_memory.md R34): with the byte of instruction `i` offered stable at the coming
edge, the step is `exec i` on the state with that edge's pins taken off. -/
def Obligations.AcceptedByteRunsItsInstruction : Prop :=
  ∀ (s : State) (b : Byte) (i : Instr) (rest : List Pins),
    s.pins = ⟨false, true, .stable b⟩ :: rest → decode [b] = .ok i [] →
      i.wellFormed = true ∧ step s = exec i { s with pins := rest }

/-- 70_reset_and_hazards.md R132 in the model's form (log 2): an unstable byte is the free value `Config.unstableByte`, a
new one at each unstable edge. The statement holds whatever that value is. -/
def Obligations.UnstableByteRunsAFreeByte : Prop :=
  ∀ (s : State) (rest : List Pins), s.pins = ⟨false, true, .unstable⟩ :: rest →
    step s = exec (decodeByte (Config.unstableByte s.unstable_draws))
      { s with pins := rest, unstable_draws := s.unstable_draws + 1 }

/-- The MODEL'S CHOICE (log 13): presenting a table word makes the very next edge run its instruction and leaves nothing
of the presentation behind. -/
def Obligations.PresentedWordRunsAtTheNextEdge : Prop :=
  ∀ (s : State) (w : Nat) (i : Instr), decodeTableWord 8 w = some i → step (s.withFetchWord 8 w) = exec i s

/-- 20_memory.md R34: "The value of `in_byte` is not read when `in_valid = 0`." -/
def Obligations.InByteIsNotReadWithoutInValid : Prop :=
  ∀ (s : State) (r : Bool) (x y : InByte) (rest : List Pins),
    step { s with pins := ⟨r, false, x⟩ :: rest } = step { s with pins := ⟨r, false, y⟩ :: rest }

/-- 20_memory.md R35: `in_ready` is 1 in every cycle, and every step finishes in its one cycle (it answers a next state). -/
def Obligations.DecoderIsAlwaysReady : Prop :=
  ∀ s : State, s.in_ready = true ∧ ∃ t, step s = .next t

/-- 20_memory.md R52: changing what drives the pins leaves every register unchanged, so that a partial message is completed
by data bytes of the new source. -/
def Obligations.RebindingTheSourceKeepsAPartialMessage : Prop :=
  ∀ (s : State) (source : List Pins) (v : Data7) (m : Message), s.st_v = true → s.pd_v = true → inv s = true →
    synth s.st s.pd (some v) = some m →
      attachSource source s = { s with pins := source } ∧
      ∃ t, step (attachSource (⟨false, true, .stable (encodeByte (.data v))⟩ :: source) s) = .next t ∧
        t.portMessage = some m ∧ t.pins = source

/-! ### The instructions: result, frame and completion -/

/-- 40_step_and_nondata.md R76: a channel status byte becomes the held status and drops the buffered byte, from every state;
nothing else changes but `msg_valid`, which falls (20_memory.md R40). With the discard outcome of R76: for a state outside `INV`
the label is the model's reading (log 10). -/
def Obligations.ChannelStatusBecomesTheHeldStatus : Prop :=
  ∀ (s : State) (c : BitVec 4),
    exec (.noteOff c) s
      = .next { s with st_v := true, st := 0x80#8 ||| c.setWidth 8, pd_v := false, msg_valid := false } ∧
    exec (.noteOn c) s
      = .next { s with st_v := true, st := 0x90#8 ||| c.setWidth 8, pd_v := false, msg_valid := false } ∧
    exec (.noteAftertouch c) s
      = .next { s with st_v := true, st := 0xA0#8 ||| c.setWidth 8, pd_v := false, msg_valid := false } ∧
    exec (.controlChange c) s
      = .next { s with st_v := true, st := 0xB0#8 ||| c.setWidth 8, pd_v := false, msg_valid := false } ∧
    exec (.programChange c) s
      = .next { s with st_v := true, st := 0xC0#8 ||| c.setWidth 8, pd_v := false, msg_valid := false } ∧
    exec (.channelAftertouch c) s
      = .next { s with st_v := true, st := 0xD0#8 ||| c.setWidth 8, pd_v := false, msg_valid := false } ∧
    exec (.pitchBend c) s
      = .next { s with st_v := true, st := 0xE0#8 ||| c.setWidth 8, pd_v := false, msg_valid := false } ∧
    ∀ b : Byte, 0x80#8 ≤ b → b ≤ 0xEF#8 →
      label s (.byte b) = if isCollect s ∨ isSysex s then .invInterrupted else .statusLoaded

/-- 40_step_and_nondata.md R77: 0xF0 enters the skip scan from every state. That `pd` keeps its bits is the model's reading
(log 6). With the discard outcome of R77: for a state outside `INV` the label is the model's reading (log 10). -/
def Obligations.SysexStartEntersTheSkipScan : Prop :=
  ∀ s : State,
    exec .sysexStart s = .next { s with st_v := true, st := 0xF0#8, pd_v := false, msg_valid := false } ∧
    label s (.byte 0xF0#8) = if isCollect s ∨ isSysex s then .invInterrupted else .sysexStart

/-- 40_step_and_nondata.md R78: EOX empties the decode state in every mode. That `st` and `pd` keep their bits is the model's
reading (log 6). With the discard outcome of R78: for a state outside `INV` the label is the model's reading (log 10). -/
def Obligations.EoxEmptiesTheDecodeState : Prop :=
  ∀ s : State,
    exec .eox s = .next { s with st_v := false, pd_v := false, msg_valid := false } ∧
    label s (.byte 0xF7#8) = if isSysex s then .sysexEnd else .invLoneEox

/-- 40_step_and_nondata.md R79: each of 0xF1 to 0xF6 resynchronizes at once. That `st` and `pd` keep their bits is the model's
reading (log 6). With the discard outcome of R79. -/
def Obligations.OtherSystemCommonEmptiesTheDecodeState : Prop :=
  ∀ s : State,
    exec .sysCommonF1 s = .next { s with st_v := false, pd_v := false, msg_valid := false } ∧
    exec .sysCommonF2 s = .next { s with st_v := false, pd_v := false, msg_valid := false } ∧
    exec .sysCommonF3 s = .next { s with st_v := false, pd_v := false, msg_valid := false } ∧
    exec .sysCommonF4 s = .next { s with st_v := false, pd_v := false, msg_valid := false } ∧
    exec .sysCommonF5 s = .next { s with st_v := false, pd_v := false, msg_valid := false } ∧
    exec .sysCommonF6 s = .next { s with st_v := false, pd_v := false, msg_valid := false } ∧
    ∀ b : Byte, 0xF1#8 ≤ b → b ≤ 0xF6#8 → label s (.byte b) = .invUnsupportedStatus

/-- 40_step_and_nondata.md R73 (and R74 for 0xFF, R75 for 0xF8): a Real-Time byte changes no register of the decode state in
any mode and delivers nothing. That `msg_valid` falls, as on every edge without a message (20_memory.md R34, R40), is the
model's reading beside R73's "every register keeps its value" (log 7). -/
def Obligations.RealTimeBytesAreAbsorbedInEveryMode : Prop :=
  ∀ s : State,
    exec .realtimeF8 s = .next { s with msg_valid := false } ∧ exec .realtimeF9 s = .next { s with msg_valid := false } ∧
    exec .realtimeFA s = .next { s with msg_valid := false } ∧ exec .realtimeFB s = .next { s with msg_valid := false } ∧
    exec .realtimeFC s = .next { s with msg_valid := false } ∧ exec .realtimeFD s = .next { s with msg_valid := false } ∧
    exec .realtimeFE s = .next { s with msg_valid := false } ∧ exec .realtimeFF s = .next { s with msg_valid := false } ∧
    ∀ b : Byte, 0xF8#8 ≤ b → label s (.byte b) = .absorbRt

/-- 41_data_bytes.md R86: a data byte with no status held is discarded, and the state is EMPTY. That `st` and `pd` keep their
bits is the model's reading (log 6). -/
def Obligations.StrayDataByteIsDiscarded : Prop :=
  ∀ (s : State) (v : Data7), inv s = true → s.st_v = false →
    exec (.data v) s = .next { s with st_v := false, pd_v := false, msg_valid := false } ∧
    label s (.byte (0#1 ++ v)) = .invStrayData

/-- 41_data_bytes.md R87: a payload byte of a SysEx block is discarded and the block goes on. -/
def Obligations.SysexPayloadByteIsDiscarded : Prop :=
  ∀ (s : State) (v : Data7), inv s = true → s.st_v = true → s.st = 0xF0#8 →
    exec (.data v) s = .next { s with msg_valid := false } ∧
    label s (.byte (0#1 ++ v)) = .sysexPayload

/-- 41_data_bytes.md R88 with 30_encoding.md R67: a data byte under 0xC0–0xDF delivers a ProgramChange (0xC) or a
ChannelAftertouch (0xD) and keeps the status. That these are the one-data-byte families is the spec's general knowledge
(30_encoding.md R56, log 4). -/
def Obligations.OneDataByteMessageIsDelivered : Prop :=
  ∀ (s : State) (v : Data7), inv s = true → s.st_v = true → 0xC0#8 ≤ s.st → s.st ≤ 0xDF#8 →
    exec (.data v) s = .next { s with
      pd_v := false, msg_valid := true, msg_kind := if s.st ≤ 0xCF#8 then 4#3 else 5#3,
      msg_channel := (s.st &&& 0x0F#8).setWidth 5 + 1#5, msg_p1 := v, msg_p2 := 0#14 } ∧
    label s (.byte (0#1 ++ v)) = .delivered

/-- 41_data_bytes.md R89: the first data byte of a two-data-byte message is buffered, under every such status. -/
def Obligations.FirstOfTwoDataBytesIsBuffered : Prop :=
  ∀ (s : State) (v : Data7), s.st_v = true → s.pd_v = false →
    (0x80#8 ≤ s.st ∧ s.st ≤ 0xBF#8 ∨ 0xE0#8 ≤ s.st ∧ s.st ≤ 0xEF#8) →
    exec (.data v) s = .next { s with pd_v := true, pd := v, msg_valid := false } ∧
    label s (.byte (0#1 ++ v)) = .dataBuffered

/-- 41_data_bytes.md R90 with 30_encoding.md R63, R64, R67: the second data byte of a two-data-byte message delivers it, `pd`
the first field and `v` the second, and keeps the status. For the four kinds of 7-bit fields (0x8 to 0xB) `v` is the second
field; for Pitch Bend (0xE) the 14-bit value is `v * 128 + pd`. That 0xA and 0xB are such families is the spec's general
knowledge (30_encoding.md R56, log 4). -/
def Obligations.SecondOfTwoDataBytesDelivers : Prop :=
  ∀ (s : State) (v : Data7), s.st_v = true → s.pd_v = true →
    (0x80#8 ≤ s.st → s.st ≤ 0xBF#8 →
      exec (.data v) s = .next { s with
        pd_v := false, msg_valid := true, msg_kind := (s.st >>> 4).setWidth 3,
        msg_channel := (s.st &&& 0x0F#8).setWidth 5 + 1#5, msg_p1 := s.pd, msg_p2 := v.setWidth 14 } ∧
      label s (.byte (0#1 ++ v)) = .delivered) ∧
    (0xE0#8 ≤ s.st → s.st ≤ 0xEF#8 →
      exec (.data v) s = .next { s with
        pd_v := false, msg_valid := true, msg_kind := 6#3, msg_channel := (s.st &&& 0x0F#8).setWidth 5 + 1#5,
        msg_p1 := 0#7, msg_p2 := BitVec.ofNat 14 (v.toNat * 128 + s.pd.toNat) } ∧
      label s (.byte (0#1 ++ v)) = .delivered)

/-- 40_step_and_nondata.md R72: `norm`, with `INV` written out; and on a state outside `INV` a data byte acts as on EMPTY
(the spec's decision D18; the bits of `st` and `pd` stay: log 6). -/
def Obligations.DataByteOutsideTheInvariantEmpties : Prop :=
  ∀ (s : State) (v : Data7),
    (inv s = true ↔ (s.st_v = true → (0x80#8 ≤ s.st ∧ s.st ≤ 0xEF#8) ∨ s.st = 0xF0#8) ∧
      (s.pd_v = true → s.st_v = true ∧ req s.st = .two)) ∧
    (inv s = true → norm s = s) ∧
    (inv s = false → norm s = { s with st_v := false, pd_v := false } ∧
      exec (.data v) s = .next { s with st_v := false, pd_v := false, msg_valid := false })

/-- 60_exceptions.md R109: every byte in every state has a defined, non-faulting step. -/
def Obligations.EveryInstructionAnswersANextState : Prop :=
  ∀ (i : Instr) (s : State), ∃ t, exec i s = .next t ∧ t.pins = s.pins ∧ t.unstable_draws = s.unstable_draws

/-! ### The helpers, the synthesizer, the port -/

/-- 42_synthesizer.md R94: `req` by the upper nibble of the status; 0 is never returned. -/
def Obligations.RequiredDataBytesByFamily : Prop :=
  ∀ s : Byte,
    (req s = .two ↔ 0x80#8 ≤ s ∧ s ≤ 0xBF#8 ∨ 0xE0#8 ≤ s ∧ s ≤ 0xEF#8) ∧
    (req s = .one ↔ 0xC0#8 ≤ s ∧ s ≤ 0xDF#8) ∧
    (req s = .unsupported ↔ s ≤ 0x7F#8 ∨ 0xF0#8 ≤ s) ∧ req s ≠ .zero

/-- 42_synthesizer.md R95: `supportsRunningStatus` is true exactly for 0x80–0xEF; a step that delivers leaves such a status
held with the buffer empty, and every System Common byte leaves none that it is true for. -/
def Obligations.OnlyChannelStatusesRun : Prop :=
  ∀ (s : State) (b : Byte),
    (supportsRunningStatus b = true ↔ 0x80#8 ≤ b ∧ b ≤ 0xEF#8) ∧
    ((stepByte s b).2.isSome = true →
      (acceptByte s b).st_v = true ∧ supportsRunningStatus (acceptByte s b).st = true ∧ (acceptByte s b).pd_v = false ∧
      (acceptByte s b).st = s.st) ∧
    (0xF0#8 ≤ b → b ≤ 0xF7#8 →
      (acceptByte s b).st_v = true → supportsRunningStatus (acceptByte s b).st = false)

/-- 42_synthesizer.md R97 with R99–R105: the synthesizer on every family, channel and data byte, and its two failures
(an absent second byte, a status of no family). -/
def Obligations.SynthesizerBuildsEachKind : Prop :=
  ∀ (c : BitVec 4) (d1 v : Data7) (d2 : Option Data7),
    synth (0x80#8 ||| c.setWidth 8) d1 (some v) = some (.noteOff (c.setWidth 5 + 1#5) d1 v) ∧
    synth (0x90#8 ||| c.setWidth 8) d1 (some v) = some (.noteOn (c.setWidth 5 + 1#5) d1 v) ∧
    synth (0xA0#8 ||| c.setWidth 8) d1 (some v) = some (.noteAftertouch (c.setWidth 5 + 1#5) d1 v) ∧
    synth (0xB0#8 ||| c.setWidth 8) d1 (some v) = some (.controlChange (c.setWidth 5 + 1#5) d1 v) ∧
    synth (0xC0#8 ||| c.setWidth 8) d1 d2 = some (.programChange (c.setWidth 5 + 1#5) d1) ∧
    synth (0xD0#8 ||| c.setWidth 8) d1 d2 = some (.channelAftertouch (c.setWidth 5 + 1#5) d1) ∧
    synth (0xE0#8 ||| c.setWidth 8) d1 (some v)
      = some (.pitchBend (c.setWidth 5 + 1#5) (BitVec.ofNat 14 (v.toNat * 128 + d1.toNat))) ∧
    (∀ s : Byte, (0x80#8 ≤ s ∧ s ≤ 0xBF#8 ∨ 0xE0#8 ≤ s ∧ s ≤ 0xEF#8) → synth s d1 none = none) ∧
    (∀ s : Byte, (s ≤ 0x7F#8 ∨ 0xF0#8 ≤ s) → synth s d1 d2 = none)

/-- 42_synthesizer.md R98: `synth` answers `none` exactly for a status of no family and for an absent required byte. -/
def Obligations.SynthesizerFailsExactlyWhenIncomplete : Prop :=
  ∀ (s : Byte) (d1 : Data7) (d2 : Option Data7),
    synth s d1 d2 = none ↔ (s ≤ 0x7F#8 ∨ 0xF0#8 ≤ s) ∨ (req s = .two ∧ d2 = none)

/-- 42_synthesizer.md R107: every message `synth` returns has a channel in 1 to 16, the low nibble of its status plus one
(30_encoding.md R63), and shows on the port a kind below 7. -/
def Obligations.SynthesizedMessagesAreInRange : Prop :=
  ∀ (s : Byte) (d1 : Data7) (d2 : Option Data7) (m : Message), synth s d1 d2 = some m →
    m.wellFormed = true ∧ m.channel.toNat = s.toNat % 16 + 1 ∧ (portOf m).kind.toNat = s.toNat / 16 - 8

/-- 30_encoding.md R67: the output encoding of every kind; `msg_kind = 7` is never produced, and `msg_channel` is never 0
for a message in range. -/
def Obligations.OutputEncodingOfEachKind : Prop :=
  (∀ (ch : BitVec 5) (a b : Data7) (x : BitVec 14),
    portOf (.noteOff ch a b) = ⟨0, ch, a, b.setWidth 14⟩ ∧ portOf (.noteOn ch a b) = ⟨1, ch, a, b.setWidth 14⟩ ∧
    portOf (.noteAftertouch ch a b) = ⟨2, ch, a, b.setWidth 14⟩ ∧
    portOf (.controlChange ch a b) = ⟨3, ch, a, b.setWidth 14⟩ ∧
    portOf (.programChange ch a) = ⟨4, ch, a, 0⟩ ∧ portOf (.channelAftertouch ch a) = ⟨5, ch, a, 0⟩ ∧
    portOf (.pitchBend ch x) = ⟨6, ch, 0, x⟩) ∧
  ∀ m : Message, (portOf m).kind ≠ 7#3 ∧ (m.wellFormed = true → 1 ≤ (portOf m).channel.toNat ∧ (portOf m).channel.toNat ≤ 16)

/-- 20_memory.md R40: a consumer that reads the port in the cycle after a delivery takes exactly the delivered message, and
in the cycle after any other byte takes none. -/
def Obligations.PortShowsExactlyTheDeliveredMessage : Prop :=
  ∀ (s : State) (b : Byte), (acceptByte s b).portMessage = (stepByte s b).2

/-- 20_memory.md R42 and 10_state.md R17: on every edge but a reset edge that offers no message, the four field registers keep
their values. -/
def Obligations.MessageFieldsHoldWithoutADelivery : Prop :=
  ∀ s t : State, (∀ (p : Pins) (rest : List Pins), s.pins = p :: rest → p.rst = false) → step s = .next t →
    t.msg_valid = false →
      t.msg_kind = s.msg_kind ∧ t.msg_channel = s.msg_channel ∧ t.msg_p1 = s.msg_p1 ∧ t.msg_p2 = s.msg_p2

/-- 40_step_and_nondata.md R71: "A step delivers at most one message, and only data bytes deliver one." When one is offered
after an instruction, the instruction was a data byte, a channel status was held and stays held, and every data byte it
requires is there. -/
def Obligations.OnlyACompletingDataByteDelivers : Prop :=
  ∀ (i : Instr) (s t : State), exec i s = .next t → t.msg_valid = true →
    ∃ v : Data7, i = .data v ∧ s.st_v = true ∧ 0x80#8 ≤ s.st ∧ s.st ≤ 0xEF#8 ∧ (req s.st = .one ∨ s.pd_v = true) ∧
      t.st_v = true ∧ t.st = s.st ∧ t.pd_v = false ∧
      t.portMessage = synth s.st (if s.pd_v then s.pd else v) (if s.pd_v then some v else none)

/-! ### Encoding -/

/-- 30_encoding.md R68, R70: the decoder inverts the encoder on every instruction with every operand, and the encoder the
decoder on every byte stream, the rest of the stream untouched; only the empty stream is rejected. -/
def Obligations.DecodeAndEncodeAgree : Prop :=
  (∀ (i : Instr) (rest : List Byte), decode (encode i ++ rest) = .ok i rest) ∧
  (∀ (bs : List Byte) (i : Instr) (rest : List Byte), decode bs = .ok i rest → bs = encode i ++ rest) ∧
  ∀ (bs : List Byte) (why : DecodeReject), decode bs = .rejected why → bs = []

/-- 30_encoding.md R70: the rows of the opcode table cover all 256 byte values, no two overlap, and the row of a byte is the
row of the instruction it decodes to. -/
def Obligations.OpcodeTablePartitionsTheBytes : Prop :=
  ∀ b : Byte, (opcodeTable.filter (fun r => r.holds b)).map OpcodeRow.mnemonic = [(decodeByte b).mnemonic]

/-- 30_encoding.md R53, R54: the ordered class tests give the classes by value, and the decoded instruction is of its
byte's class. -/
def Obligations.ByteClassesByValue : Prop :=
  ∀ b : Byte,
    (byteClass b = .data ↔ b ≤ 0x7F#8) ∧ (byteClass b = .channelStatus ↔ 0x80#8 ≤ b ∧ b ≤ 0xEF#8) ∧
    (byteClass b = .sysexStart ↔ b = 0xF0#8) ∧ (byteClass b = .otherSystemCommon ↔ 0xF1#8 ≤ b ∧ b ≤ 0xF6#8) ∧
    (byteClass b = .eox ↔ b = 0xF7#8) ∧ (byteClass b = .realTime ↔ 0xF8#8 ≤ b) ∧
    (decodeByte b).byteClass = byteClass b

/-- Words written out from 30_encoding.md R53 and R56 decode to the instructions they stand for, in every family. -/
def Obligations.WrittenOutWordsDecode : Prop :=
  decodeByte 0b00111100#8 = .data 60#7 ∧ decodeByte 0b10000101#8 = .noteOff 5#4 ∧
  decodeByte 0b10011111#8 = .noteOn 15#4 ∧ decodeByte 0b10100011#8 = .noteAftertouch 3#4 ∧
  decodeByte 0b10110000#8 = .controlChange 0#4 ∧ decodeByte 0b11000101#8 = .programChange 5#4 ∧
  decodeByte 0b11011111#8 = .channelAftertouch 15#4 ∧ decodeByte 0b11100010#8 = .pitchBend 2#4 ∧
  decodeByte 0b11110000#8 = .sysexStart ∧ decodeByte 0b11110011#8 = .sysCommonF3 ∧
  decodeByte 0b11110111#8 = .eox ∧ decodeByte 0b11111000#8 = .realtimeF8 ∧ decodeByte 0b11111111#8 = .realtimeFF

/-! ### Invariants -/

/-- 10_state.md R18–R21 at reset, with the port's invariant. -/
def Obligations.ResetStateIsSafe : Prop :=
  safe State.reset = true ∧ modeOf State.reset = some .idle

/-- 10_state.md R18, R20, R21: every step keeps the invariant of the decode state, from every state that meets it, whatever the
host drives (unstable bytes and resets included). The invariant is written out. -/
def Obligations.StepKeepsTheDecodeInvariant : Prop :=
  ∀ s t : State,
    (s.st_v = true → (0x80#8 ≤ s.st ∧ s.st ≤ 0xEF#8) ∨ s.st = 0xF0#8) →
    (s.pd_v = true → s.st_v = true ∧ req s.st = .two) → step s = .next t →
      (t.st_v = true → ((0x80#8 ≤ t.st ∧ t.st ≤ 0xEF#8) ∨ t.st = 0xF0#8) ∧ t.st.getLsbD 7 = true) ∧
      (t.pd_v = true → t.st_v = true ∧ req t.st = .two)

/-- 42_synthesizer.md R107, 20_memory.md R42: the port always shows the fields of a message in range, or still the reset
fields without a message. -/
def Obligations.StepKeepsThePortInRange : Prop :=
  ∀ s t : State, portInv s = true → step s = .next t → portInv t = true

/-- 60_exceptions.md R109, 10_state.md R20, R21: from every safe state, however long the run and whatever the host drives, no
edge stops the machine and every state on the way is safe. -/
def Obligations.SafeStatesRunSafelyForever : Prop :=
  ∀ (k : Nat) (s : State), safe s = true → safeRun k s = true

/-! ### Modes and labels -/

/-- 10_state.md R22: the states that meet the invariants fall into the four modes, each with the registers of the table. -/
def Obligations.ModesAreTheReachableRegisterStates : Prop :=
  ∀ s : State, ((modeOf s).isSome = inv s) ∧
    (modeOf s = some .idle ↔ s.st_v = false ∧ s.pd_v = false) ∧
    (∀ a, modeOf s = some (.running a) ↔ s.st_v = true ∧ s.st = a ∧ 0x80#8 ≤ a ∧ a ≤ 0xEF#8 ∧ s.pd_v = false) ∧
    (∀ a d, modeOf s = some (.collect a d) ↔ s.st_v = true ∧ s.st = a ∧ req a = .two ∧ s.pd_v = true ∧ s.pd = d) ∧
    (modeOf s = some .sysex ↔ s.st_v = true ∧ s.st = 0xF0#8 ∧ s.pd_v = false)

/-- 40_step_and_nondata.md R81: on every state with a mode and every byte stream, the registers run as the next-state table
says: same messages, same final mode. -/
def Obligations.RegistersRefineTheModeTable : Prop :=
  ∀ (bs : List Byte) (s : State) (m : Mode), modeOf s = some m →
    modeOf (runBytes s bs).1 = some (runModes m bs).1 ∧ (runBytes s bs).2 = (runModes m bs).2

/-- 60_exceptions.md R112, 41_data_bytes.md R93: the label is `DELIVERED` exactly when the step delivers, and
`INV_SYNTH_FAIL` never occurs, even outside the invariants. -/
def Obligations.DeliveredLabelIffAMessageIsDelivered : Prop :=
  ∀ (s : State) (b : Byte),
    (label s (.byte b) = .delivered ↔ (acceptByte s b).msg_valid = true) ∧ label s (.byte b) ≠ .invSynthFail

/-- 60_exceptions.md R110: the labels' codes are 0 to 12, each one label's. -/
def Obligations.LabelCodesAreDistinct : Prop :=
  ∀ a b : Label, labelCode a ≤ 12 ∧ (labelCode a = labelCode b → a = b)

/-- 60_exceptions.md R113: in every outcome of codes 1 to 6 from a state that meets the invariants, what was collected before is
kept: a buffered byte stays buffered under its status, and no partial message or block is lost. -/
def Obligations.IncompleteOutcomesKeepWhatWasCollected : Prop :=
  ∀ (s : State) (b : Byte), inv s = true → 1 ≤ labelCode (label s (.byte b)) → labelCode (label s (.byte b)) ≤ 6 →
    (s.pd_v = true → (acceptByte s b).st_v = true ∧ (acceptByte s b).st = s.st ∧ (acceptByte s b).pd_v = true ∧
      (acceptByte s b).pd = s.pd) ∧
    (isSysex s = true → isSysex (acceptByte s b) = true)

/-! ### Runs -/

/-- 40_step_and_nondata.md R82, 10_state.md R29: the result of an instruction depends only on the live decode state: two states
that hold the same status and the same buffered byte (whatever the dead bits and the port hold) go to two such states and
offer the same message. -/
def Obligations.ResultDependsOnlyOnTheLiveDecodeState : Prop :=
  ∀ (i : Instr) (s₁ s₂ t₁ t₂ : State), s₁.status = s₂.status → s₁.pending = s₂.pending →
    exec i s₁ = .next t₁ → exec i s₂ = .next t₂ →
      t₁.status = t₂.status ∧ t₁.pending = t₂.pending ∧ t₁.portMessage = t₂.portMessage

/-- 30_encoding.md R62: Real-Time bytes anywhere in a stream change neither the messages nor the decode state it leaves. -/
def Obligations.RealTimeBytesDropOutOfEveryStream : Prop :=
  ∀ (bs : List Byte) (s : State),
    (runBytes s bs).2 = (runBytes s (bs.filter (fun b => b < 0xF8#8))).2 ∧
    (runBytes s bs).1.st_v = (runBytes s (bs.filter (fun b => b < 0xF8#8))).1.st_v ∧
    (runBytes s bs).1.st = (runBytes s (bs.filter (fun b => b < 0xF8#8))).1.st ∧
    (runBytes s bs).1.pd_v = (runBytes s (bs.filter (fun b => b < 0xF8#8))).1.pd_v ∧
    (runBytes s bs).1.pd = (runBytes s (bs.filter (fun b => b < 0xF8#8))).1.pd

/-- 30_encoding.md R59, first and second row: a full message delivers exactly its one message from every state, with any
Real-Time bytes between its bytes, and its status stays held. -/
def Obligations.FullMessageFormsDeliverOneMessage : Prop :=
  ∀ (s : State) (S : Byte) (r₁ r₂ : List Byte) (d₁ d₂ : Data7),
    (∀ b ∈ r₁, 0xF8#8 ≤ b) → (∀ b ∈ r₂, 0xF8#8 ≤ b) →
    (req S = .two →
      ∃ m, synth S d₁ (some d₂) = some m ∧
        (runBytes s (S :: (r₁ ++ (0#1 ++ d₁) :: (r₂ ++ [0#1 ++ d₂])))).2 = [m] ∧
        modeOf (runBytes s (S :: (r₁ ++ (0#1 ++ d₁) :: (r₂ ++ [0#1 ++ d₂])))).1 = some (.running S)) ∧
    (req S = .one →
      ∃ m, synth S d₁ none = some m ∧
        (runBytes s (S :: (r₁ ++ [0#1 ++ d₁]))).2 = [m] ∧
        modeOf (runBytes s (S :: (r₁ ++ [0#1 ++ d₁]))).1 = some (.running S))

/-- 30_encoding.md R61: under running status each further group of `req(S)` data bytes forms one more message of status `S`,
in order, and the status stays held. -/
def Obligations.RunningStatusDeliversOneMessagePerGroup : Prop :=
  ∀ (S : Byte) (s : State), modeOf s = some (.running S) →
    (req S = .two → ∀ pairs : List (Data7 × Data7),
      (runBytes s (pairs.flatMap (fun p => [0#1 ++ p.1, 0#1 ++ p.2]))).2.map some
        = pairs.map (fun p => synth S p.1 (some p.2)) ∧
      modeOf (runBytes s (pairs.flatMap (fun p => [0#1 ++ p.1, 0#1 ++ p.2]))).1 = some (.running S)) ∧
    (req S = .one → ∀ ds : List Data7,
      (runBytes s (ds.map (fun d => 0#1 ++ d))).2.map some = ds.map (fun d => synth S d none) ∧
      modeOf (runBytes s (ds.map (fun d => 0#1 ++ d))).1 = some (.running S))

/-- 30_encoding.md R59, fifth row: a SysEx block with any payload, Real-Time bytes among it, delivers nothing from every state
and leaves EMPTY. -/
def Obligations.SysexBlockDeliversNothing : Prop :=
  ∀ (s : State) (payload : List Byte), (∀ b ∈ payload, b ≤ 0x7F#8 ∨ 0xF8#8 ≤ b) →
    (runBytes s (0xF0#8 :: (payload ++ [0xF7#8]))).2 = [] ∧
    isEmpty (runBytes s (0xF0#8 :: (payload ++ [0xF7#8]))).1 = true

/-- 70_reset_and_hazards.md R129, 41_data_bytes.md R86: with EMPTY, no stream without a status byte delivers anything, and the
state stays EMPTY. -/
def Obligations.NothingIsDeliveredBeforeAStatusByte : Prop :=
  ∀ (s : State) (bs : List Byte), isEmpty s = true → (∀ b ∈ bs, b ≤ 0x7F#8 ∨ 0xF8#8 ≤ b) →
    (runBytes s bs).2 = [] ∧ isEmpty (runBytes s bs).1 = true

/-- 40_step_and_nondata.md R84, case 3: `Idle` and `SysEx` deliver the same messages on every continuation. -/
def Obligations.IdleAndSysexAreOutputEquivalent : Prop :=
  ∀ (bs : List Byte) (s₁ s₂ : State), modeOf s₁ = some .idle → modeOf s₂ = some .sysex →
    (runBytes s₁ bs).2 = (runBytes s₂ bs).2

/-- 30_encoding.md R60 with 60_exceptions.md R116, which the spec derives: from reset, whatever the stream, a byte delivers
`m` exactly when it is a data byte and, Real-Time bytes apart, the stream ends with a channel status `S` and data bytes only, the byte completes a group of
`req(S)` of them, and `m` is `synth` of `S` and that group: no message is partial, mixed, stray or lost. -/
def Obligations.DeliveredMessageIsTheLastStatusWithItsGroup : Prop :=
  ∀ (bs : List Byte) (b : Byte) (m : Message),
    (stepByte (runBytes State.reset bs).1 b).2 = some m ↔
      b ≤ 0x7F#8 ∧ ∃ (earlier : List Byte) (S : Byte) (ds : List Byte),
        bs.filter (fun x => x < 0xF8#8) = earlier ++ S :: ds ∧ (∀ d ∈ ds, d ≤ 0x7F#8) ∧
        ((req S = .one ∧ synth S (b.setWidth 7) none = some m) ∨
         (req S = .two ∧ ds.length % 2 = 1 ∧
           ∃ d₁, ds.getLast? = some d₁ ∧ synth S (d₁.setWidth 7) (some (b.setWidth 7)) = some m))

/-- 70_reset_and_hazards.md R137, R140: on every orderly drive of the pins (no reset, no unstable byte), with idle edges
anywhere, the port offers the messages of the accepted bytes taken back to back, in order, and the decode state is theirs.
Reset edges and unstable bytes are `ResetEdgeRestoresEveryRegister`'s and `UnstableByteRunsAFreeByte`'s. -/
def Obligations.IdleEdgesDoNotChangeTheMessages : Prop :=
  ∀ s : State, (∀ p ∈ s.pins, p.orderly = true) →
    (runEdges s.pins.length s).2 = (runBytes s (s.pins.filterMap Pins.accepted?)).2 ∧
    (runEdges s.pins.length s).1.status = (runBytes s (s.pins.filterMap Pins.accepted?)).1.status ∧
    (runEdges s.pins.length s).1.pending = (runBytes s (s.pins.filterMap Pins.accepted?)).1.pending

/-- 40_step_and_nondata.md R84: for every byte stream, however it is split into the source's calls and whatever is available at
each, the call-based `decode()` (as put together in log 9) returns the messages the byte-per-step machine delivers, in
order. After the arrivals, calls go on until every byte has been read. -/
def Obligations.CallViewDeliversTheSameMessages : Prop :=
  ∀ (s : State) (arrivals : List (List Byte)), inv s = true →
    (runCalls (callStateOf s) [] (arrivals ++ List.replicate arrivals.flatten.length [])).2.2
      = (runBytes s arrivals.flatten).2

/-- 10_state.md R31, 60_exceptions.md R122 in the model's form (log 12): a system is a list of which one instance takes an edge at
a time, and in that list an instance's edge is its own step and leaves every other instance as it was, and edges of
different instances commute. -/
def Obligations.InstancesShareNothing : Prop :=
  ∀ (sys : System) (j k : Nat), j ≠ k →
    (stepInstance k sys)[j]? = sys[j]? ∧
    stepInstance j (stepInstance k sys) = stepInstance k (stepInstance j sys) ∧
    ∀ s t : State, sys[k]? = some s → step s = .next t → (stepInstance k sys)[k]? = some t
end

