-- ==== Sys2Proof/Laws/State.lean ====
section
/-! SUPPORT. One lemma per field per update of State, true by rfl: what each named operation leaves in each register.
They are the simp set that keeps record updates out of later proofs. -/

namespace Sys2Proof.Machine

@[simp] theorem resync_st_v (s : State) : (resync s).st_v = false := rfl
@[simp] theorem resync_st (s : State) : (resync s).st = s.st := rfl
@[simp] theorem resync_pd_v (s : State) : (resync s).pd_v = false := rfl
@[simp] theorem resync_pd (s : State) : (resync s).pd = s.pd := rfl
@[simp] theorem resync_msg_valid (s : State) : (resync s).msg_valid = s.msg_valid := rfl
@[simp] theorem resync_msg_kind (s : State) : (resync s).msg_kind = s.msg_kind := rfl
@[simp] theorem resync_msg_channel (s : State) : (resync s).msg_channel = s.msg_channel := rfl
@[simp] theorem resync_msg_p1 (s : State) : (resync s).msg_p1 = s.msg_p1 := rfl
@[simp] theorem resync_msg_p2 (s : State) : (resync s).msg_p2 = s.msg_p2 := rfl
@[simp] theorem resync_pins (s : State) : (resync s).pins = s.pins := rfl
@[simp] theorem resync_unstable_draws (s : State) : (resync s).unstable_draws = s.unstable_draws := rfl

@[simp] theorem loadStatus_st_v (b : Byte) (s : State) : (loadStatus b s).st_v = true := rfl
@[simp] theorem loadStatus_st (b : Byte) (s : State) : (loadStatus b s).st = b := rfl
@[simp] theorem loadStatus_pd_v (b : Byte) (s : State) : (loadStatus b s).pd_v = false := rfl
@[simp] theorem loadStatus_pd (b : Byte) (s : State) : (loadStatus b s).pd = s.pd := rfl
@[simp] theorem loadStatus_msg_valid (b : Byte) (s : State) : (loadStatus b s).msg_valid = s.msg_valid := rfl
@[simp] theorem loadStatus_msg_kind (b : Byte) (s : State) : (loadStatus b s).msg_kind = s.msg_kind := rfl
@[simp] theorem loadStatus_msg_channel (b : Byte) (s : State) : (loadStatus b s).msg_channel = s.msg_channel := rfl
@[simp] theorem loadStatus_msg_p1 (b : Byte) (s : State) : (loadStatus b s).msg_p1 = s.msg_p1 := rfl
@[simp] theorem loadStatus_msg_p2 (b : Byte) (s : State) : (loadStatus b s).msg_p2 = s.msg_p2 := rfl
@[simp] theorem loadStatus_pins (b : Byte) (s : State) : (loadStatus b s).pins = s.pins := rfl
@[simp] theorem loadStatus_unstable_draws (b : Byte) (s : State) : (loadStatus b s).unstable_draws = s.unstable_draws := rfl

@[simp] theorem bufferFirst_st_v (v : Data7) (s : State) : (bufferFirst v s).st_v = s.st_v := rfl
@[simp] theorem bufferFirst_st (v : Data7) (s : State) : (bufferFirst v s).st = s.st := rfl
@[simp] theorem bufferFirst_pd_v (v : Data7) (s : State) : (bufferFirst v s).pd_v = true := rfl
@[simp] theorem bufferFirst_pd (v : Data7) (s : State) : (bufferFirst v s).pd = v := rfl
@[simp] theorem bufferFirst_msg_valid (v : Data7) (s : State) : (bufferFirst v s).msg_valid = s.msg_valid := rfl
@[simp] theorem bufferFirst_msg_kind (v : Data7) (s : State) : (bufferFirst v s).msg_kind = s.msg_kind := rfl
@[simp] theorem bufferFirst_msg_channel (v : Data7) (s : State) : (bufferFirst v s).msg_channel = s.msg_channel := rfl
@[simp] theorem bufferFirst_msg_p1 (v : Data7) (s : State) : (bufferFirst v s).msg_p1 = s.msg_p1 := rfl
@[simp] theorem bufferFirst_msg_p2 (v : Data7) (s : State) : (bufferFirst v s).msg_p2 = s.msg_p2 := rfl
@[simp] theorem bufferFirst_pins (v : Data7) (s : State) : (bufferFirst v s).pins = s.pins := rfl
@[simp] theorem bufferFirst_unstable_draws (v : Data7) (s : State) : (bufferFirst v s).unstable_draws = s.unstable_draws := rfl

@[simp] theorem clearPending_st_v (s : State) : (clearPending s).st_v = s.st_v := rfl
@[simp] theorem clearPending_st (s : State) : (clearPending s).st = s.st := rfl
@[simp] theorem clearPending_pd_v (s : State) : (clearPending s).pd_v = false := rfl
@[simp] theorem clearPending_pd (s : State) : (clearPending s).pd = s.pd := rfl
@[simp] theorem clearPending_msg_valid (s : State) : (clearPending s).msg_valid = s.msg_valid := rfl
@[simp] theorem clearPending_msg_kind (s : State) : (clearPending s).msg_kind = s.msg_kind := rfl
@[simp] theorem clearPending_msg_channel (s : State) : (clearPending s).msg_channel = s.msg_channel := rfl
@[simp] theorem clearPending_msg_p1 (s : State) : (clearPending s).msg_p1 = s.msg_p1 := rfl
@[simp] theorem clearPending_msg_p2 (s : State) : (clearPending s).msg_p2 = s.msg_p2 := rfl
@[simp] theorem clearPending_pins (s : State) : (clearPending s).pins = s.pins := rfl
@[simp] theorem clearPending_unstable_draws (s : State) : (clearPending s).unstable_draws = s.unstable_draws := rfl

@[simp] theorem emit_st_v (m : Message) (s : State) : (emit m s).st_v = s.st_v := rfl
@[simp] theorem emit_st (m : Message) (s : State) : (emit m s).st = s.st := rfl
@[simp] theorem emit_pd_v (m : Message) (s : State) : (emit m s).pd_v = s.pd_v := rfl
@[simp] theorem emit_pd (m : Message) (s : State) : (emit m s).pd = s.pd := rfl
@[simp] theorem emit_msg_valid (m : Message) (s : State) : (emit m s).msg_valid = true := rfl
@[simp] theorem emit_msg_kind (m : Message) (s : State) : (emit m s).msg_kind = (portOf m).kind := rfl
@[simp] theorem emit_msg_channel (m : Message) (s : State) : (emit m s).msg_channel = (portOf m).channel := rfl
@[simp] theorem emit_msg_p1 (m : Message) (s : State) : (emit m s).msg_p1 = (portOf m).p1 := rfl
@[simp] theorem emit_msg_p2 (m : Message) (s : State) : (emit m s).msg_p2 = (portOf m).p2 := rfl
@[simp] theorem emit_pins (m : Message) (s : State) : (emit m s).pins = s.pins := rfl
@[simp] theorem emit_unstable_draws (m : Message) (s : State) : (emit m s).unstable_draws = s.unstable_draws := rfl

@[simp] theorem noMessage_st_v (s : State) : (noMessage s).st_v = s.st_v := rfl
@[simp] theorem noMessage_st (s : State) : (noMessage s).st = s.st := rfl
@[simp] theorem noMessage_pd_v (s : State) : (noMessage s).pd_v = s.pd_v := rfl
@[simp] theorem noMessage_pd (s : State) : (noMessage s).pd = s.pd := rfl
@[simp] theorem noMessage_msg_valid (s : State) : (noMessage s).msg_valid = false := rfl
@[simp] theorem noMessage_msg_kind (s : State) : (noMessage s).msg_kind = s.msg_kind := rfl
@[simp] theorem noMessage_msg_channel (s : State) : (noMessage s).msg_channel = s.msg_channel := rfl
@[simp] theorem noMessage_msg_p1 (s : State) : (noMessage s).msg_p1 = s.msg_p1 := rfl
@[simp] theorem noMessage_msg_p2 (s : State) : (noMessage s).msg_p2 = s.msg_p2 := rfl
@[simp] theorem noMessage_pins (s : State) : (noMessage s).pins = s.pins := rfl
@[simp] theorem noMessage_unstable_draws (s : State) : (noMessage s).unstable_draws = s.unstable_draws := rfl

@[simp] theorem idleEdge_st_v (s : State) : (idleEdge s).st_v = s.st_v := rfl
@[simp] theorem idleEdge_st (s : State) : (idleEdge s).st = s.st := rfl
@[simp] theorem idleEdge_pd_v (s : State) : (idleEdge s).pd_v = s.pd_v := rfl
@[simp] theorem idleEdge_pd (s : State) : (idleEdge s).pd = s.pd := rfl
@[simp] theorem idleEdge_msg_valid (s : State) : (idleEdge s).msg_valid = false := rfl
@[simp] theorem idleEdge_msg_kind (s : State) : (idleEdge s).msg_kind = s.msg_kind := rfl
@[simp] theorem idleEdge_msg_channel (s : State) : (idleEdge s).msg_channel = s.msg_channel := rfl
@[simp] theorem idleEdge_msg_p1 (s : State) : (idleEdge s).msg_p1 = s.msg_p1 := rfl
@[simp] theorem idleEdge_msg_p2 (s : State) : (idleEdge s).msg_p2 = s.msg_p2 := rfl
@[simp] theorem idleEdge_pins (s : State) : (idleEdge s).pins = s.pins := rfl
@[simp] theorem idleEdge_unstable_draws (s : State) : (idleEdge s).unstable_draws = s.unstable_draws := rfl

@[simp] theorem resetRegisters_st_v (s : State) : (resetRegisters s).st_v = State.reset.st_v := rfl
@[simp] theorem resetRegisters_st (s : State) : (resetRegisters s).st = State.reset.st := rfl
@[simp] theorem resetRegisters_pd_v (s : State) : (resetRegisters s).pd_v = State.reset.pd_v := rfl
@[simp] theorem resetRegisters_pd (s : State) : (resetRegisters s).pd = State.reset.pd := rfl
@[simp] theorem resetRegisters_msg_valid (s : State) : (resetRegisters s).msg_valid = State.reset.msg_valid := rfl
@[simp] theorem resetRegisters_msg_kind (s : State) : (resetRegisters s).msg_kind = State.reset.msg_kind := rfl
@[simp] theorem resetRegisters_msg_channel (s : State) : (resetRegisters s).msg_channel = State.reset.msg_channel := rfl
@[simp] theorem resetRegisters_msg_p1 (s : State) : (resetRegisters s).msg_p1 = State.reset.msg_p1 := rfl
@[simp] theorem resetRegisters_msg_p2 (s : State) : (resetRegisters s).msg_p2 = State.reset.msg_p2 := rfl
@[simp] theorem resetRegisters_pins (s : State) : (resetRegisters s).pins = s.pins := rfl
@[simp] theorem resetRegisters_unstable_draws (s : State) : (resetRegisters s).unstable_draws = s.unstable_draws := rfl

@[simp] theorem attachSource_st_v (source : List Pins) (s : State) : (attachSource source s).st_v = s.st_v := rfl
@[simp] theorem attachSource_st (source : List Pins) (s : State) : (attachSource source s).st = s.st := rfl
@[simp] theorem attachSource_pd_v (source : List Pins) (s : State) : (attachSource source s).pd_v = s.pd_v := rfl
@[simp] theorem attachSource_pd (source : List Pins) (s : State) : (attachSource source s).pd = s.pd := rfl
@[simp] theorem attachSource_msg_valid (source : List Pins) (s : State) : (attachSource source s).msg_valid = s.msg_valid := rfl
@[simp] theorem attachSource_msg_kind (source : List Pins) (s : State) : (attachSource source s).msg_kind = s.msg_kind := rfl
@[simp] theorem attachSource_msg_channel (source : List Pins) (s : State) : (attachSource source s).msg_channel = s.msg_channel := rfl
@[simp] theorem attachSource_msg_p1 (source : List Pins) (s : State) : (attachSource source s).msg_p1 = s.msg_p1 := rfl
@[simp] theorem attachSource_msg_p2 (source : List Pins) (s : State) : (attachSource source s).msg_p2 = s.msg_p2 := rfl
@[simp] theorem attachSource_pins (source : List Pins) (s : State) : (attachSource source s).pins = source := rfl
@[simp] theorem attachSource_unstable_draws (source : List Pins) (s : State) : (attachSource source s).unstable_draws = s.unstable_draws := rfl

@[simp] theorem presentByte_st_v (b : Byte) (s : State) : (presentByte b s).st_v = s.st_v := rfl
@[simp] theorem presentByte_st (b : Byte) (s : State) : (presentByte b s).st = s.st := rfl
@[simp] theorem presentByte_pd_v (b : Byte) (s : State) : (presentByte b s).pd_v = s.pd_v := rfl
@[simp] theorem presentByte_pd (b : Byte) (s : State) : (presentByte b s).pd = s.pd := rfl
@[simp] theorem presentByte_msg_valid (b : Byte) (s : State) : (presentByte b s).msg_valid = s.msg_valid := rfl
@[simp] theorem presentByte_msg_kind (b : Byte) (s : State) : (presentByte b s).msg_kind = s.msg_kind := rfl
@[simp] theorem presentByte_msg_channel (b : Byte) (s : State) : (presentByte b s).msg_channel = s.msg_channel := rfl
@[simp] theorem presentByte_msg_p1 (b : Byte) (s : State) : (presentByte b s).msg_p1 = s.msg_p1 := rfl
@[simp] theorem presentByte_msg_p2 (b : Byte) (s : State) : (presentByte b s).msg_p2 = s.msg_p2 := rfl
@[simp] theorem presentByte_pins (b : Byte) (s : State) : (presentByte b s).pins = ⟨false, true, .stable b⟩ :: s.pins := rfl
@[simp] theorem presentByte_unstable_draws (b : Byte) (s : State) : (presentByte b s).unstable_draws = s.unstable_draws := rfl

end Sys2Proof.Machine
end

