-- ==== Sys2Proof/Laws/Ops.lean ====
section
/-! SUPPORT. What the shared operations do, said once: the flags and modes, the classification helpers on the statuses the
invariant allows, the synthesizer and the port, `norm`, `deliver`, and the case lemma of the data path. -/

namespace Sys2Proof.Machine

/-! ### The port -/

@[simp] theorem deliver_some (s : State) (m : Message) : deliver (s, some m) = emit m s := rfl
@[simp] theorem deliver_none (s : State) : deliver (s, none) = noMessage s := rfl

/-- `messageOf` reads back every message `portOf` writes (30_encoding.md R67). -/
@[simp] theorem messageOf_portOf (m : Message) : messageOf (portOf m) = some m := by
  cases m <;> simp [messageOf, portOf, BitVec.setWidth_setWidth_of_le]

/-- A delivery writes the port alone. -/
theorem deliver_decode_state (s : State) (out : Option Message) :
    (deliver (s, out)).st_v = s.st_v ∧ (deliver (s, out)).st = s.st ∧ (deliver (s, out)).pd_v = s.pd_v ∧
    (deliver (s, out)).pd = s.pd ∧ (deliver (s, out)).pins = s.pins ∧
    (deliver (s, out)).unstable_draws = s.unstable_draws := by
  cases out <;> exact ⟨rfl, rfl, rfl, rfl, rfl, rfl⟩

@[simp] theorem deliver_st_v (r : State × Option Message) : (deliver r).st_v = r.1.st_v :=
  (deliver_decode_state r.1 r.2).1
@[simp] theorem deliver_st (r : State × Option Message) : (deliver r).st = r.1.st :=
  (deliver_decode_state r.1 r.2).2.1
@[simp] theorem deliver_pd_v (r : State × Option Message) : (deliver r).pd_v = r.1.pd_v :=
  (deliver_decode_state r.1 r.2).2.2.1
@[simp] theorem deliver_pd (r : State × Option Message) : (deliver r).pd = r.1.pd :=
  (deliver_decode_state r.1 r.2).2.2.2.1
@[simp] theorem deliver_pins (r : State × Option Message) : (deliver r).pins = r.1.pins :=
  (deliver_decode_state r.1 r.2).2.2.2.2.1
@[simp] theorem deliver_unstable_draws (r : State × Option Message) : (deliver r).unstable_draws = r.1.unstable_draws :=
  (deliver_decode_state r.1 r.2).2.2.2.2.2

@[simp] theorem deliver_msg_valid (r : State × Option Message) : (deliver r).msg_valid = r.2.isSome := by
  obtain ⟨s, _ | m⟩ := r <;> rfl

/-! ### Statuses -/

/-- A status whose count is one is in 0xC0–0xDF (42_synthesizer.md R94). -/
theorem range_of_req_one : ∀ s : Byte, req s = .one → 0xC0#8 ≤ s ∧ s ≤ 0xDF#8 := by decide

/-- A status whose count is two is a channel status (42_synthesizer.md R94). -/
theorem range_of_req_two : ∀ s : Byte, req s = .two → 0x80#8 ≤ s ∧ s ≤ 0xEF#8 := by decide

/-- Every channel status needs one or two data bytes (41_data_bytes.md R85). -/
theorem req_of_channelStatus : ∀ s : Byte, 0x80#8 ≤ s → s ≤ 0xEF#8 → req s = .one ∨ req s = .two := by decide

/-- A one-data-byte status has a family whose kind needs no second byte. -/
theorem synth_of_req_one (s : Byte) (v : Data7) (h : req s = .one) : ∃ m, synth s v none = some m := by
  have key : upperNibble s = 0xC#4 ∨ upperNibble s = 0xD#4 := by
    revert h; revert s; decide
  rcases key with h | h <;> simp [synth, h]

/-- A two-data-byte status with both bytes gives a message. -/
theorem synth_of_req_two (s : Byte) (d v : Data7) (h : req s = .two) : ∃ m, synth s d (some v) = some m := by
  have key : upperNibble s = 0x8#4 ∨ upperNibble s = 0x9#4 ∨ upperNibble s = 0xA#4 ∨ upperNibble s = 0xB#4 ∨
      upperNibble s = 0xE#4 := by
    revert h; revert s; decide
  rcases key with h | h | h | h | h <;> simp [synth, h]

/-- A message's channel is its status's (30_encoding.md R63, R66). -/
theorem synth_channel {s : Byte} {d : Data7} {v : Option Data7} {m : Message} (h : synth s d v = some m) :
    m.channel = channelOf s := by
  unfold synth at h
  split_ifs at h <;> cases v <;> simp at h <;> subst h <;> rfl

/-! ### The invariant and `norm` -/

/-- `INV` as its two clauses (40_step_and_nondata.md R72). -/
theorem inv_iff (s : State) :
    inv s = true ↔ (s.st_v = true → (0x80#8 ≤ s.st ∧ s.st ≤ 0xEF#8) ∨ s.st = 0xF0#8) ∧
      (s.pd_v = true → s.st_v = true ∧ req s.st = .two) := by
  simp only [inv, Bool.and_eq_true, Bool.or_eq_true, Bool.not_eq_true', decide_eq_true_eq]
  cases s.st_v <;> cases s.pd_v <;> simp

theorem norm_of_inv {s : State} (h : inv s = true) : norm s = s := by simp [norm, h]

theorem norm_of_not_inv {s : State} (h : inv s = false) : norm s = resync s := by simp [norm, h]

/-- EMPTY meets the invariant, so a normalized state always does. -/
theorem inv_norm (s : State) : inv (norm s) = true := by
  cases h : inv s
  · simp [norm_of_not_inv h, inv_iff]
  · simpa [norm_of_inv h]

/-! ### The data path -/

/-- Everything a data byte can do on a state that meets the invariant (41_data_bytes.md R85–R90). -/
theorem dataNormalized_cases {s : State} (h : inv s = true) (v : Data7) :
    (s.st_v = false ∧ s.pd_v = false ∧ dataNormalized s v = (resync s, none)) ∨
    (s.st_v = true ∧ s.st = 0xF0#8 ∧ s.pd_v = false ∧ dataNormalized s v = (s, none)) ∨
    (s.st_v = true ∧ req s.st = .one ∧ s.pd_v = false ∧
      ∃ m, synth s.st v none = some m ∧ dataNormalized s v = (clearPending s, some m)) ∨
    (s.st_v = true ∧ req s.st = .two ∧ s.pd_v = false ∧ dataNormalized s v = (bufferFirst v s, none)) ∨
    (s.st_v = true ∧ req s.st = .two ∧ s.pd_v = true ∧
      ∃ m, synth s.st s.pd (some v) = some m ∧ dataNormalized s v = (clearPending s, some m)) := by
  rw [inv_iff] at h
  obtain ⟨hst, hpd⟩ := h
  cases hv : s.st_v
  · cases hp : s.pd_v
    · simp [dataNormalized, stray, hv]
    · simp [hv, hp] at hpd
  · by_cases hF : s.st = 0xF0#8
    · have hp : s.pd_v = false := by
        cases hp : s.pd_v
        · rfl
        · have := (hpd hp).2; rw [hF] at this; exact absurd this (by decide)
      simp [dataNormalized, sysexPayload, hv, hF, hp]
    · have hc : 0x80#8 ≤ s.st ∧ s.st ≤ 0xEF#8 := (hst hv).resolve_right hF
      rcases req_of_channelStatus s.st hc.1 hc.2 with h1 | h2
      · have hp : s.pd_v = false := by
          cases hp : s.pd_v
          · rfl
          · simp [h1] at hpd; simp [hpd] at hp
        obtain ⟨m, hm⟩ := synth_of_req_one s.st v h1
        exact .inr (.inr (.inl ⟨rfl, h1, hp, m, hm, by simp [dataNormalized, hv, hF, h1, oneByte, hm, complete]⟩))
      · cases hp : s.pd_v
        · exact .inr (.inr (.inr (.inl ⟨rfl, h2, rfl, by simp [dataNormalized, hv, hF, h2, hp, firstOfTwo]⟩)))
        · obtain ⟨m, hm⟩ := synth_of_req_two s.st s.pd v h2
          exact .inr (.inr (.inr (.inr ⟨rfl, h2, rfl, m, hm, by
            simp [dataNormalized, hv, hF, h2, hp, secondOfTwo, hm, complete]⟩)))

/-- A data byte on a state outside the invariant acts as on EMPTY (40_step_and_nondata.md R72, 41_data_bytes.md R86). -/
theorem dataByte_of_not_inv {s : State} (h : inv s = false) (v : Data7) : dataByte s v = (resync s, none) := by
  simp [dataByte, norm_of_not_inv h, dataNormalized, stray]
  rfl

/-- On a state that meets the invariant, normalization does nothing. -/
theorem dataByte_of_inv {s : State} (h : inv s = true) (v : Data7) : dataByte s v = dataNormalized s v := by
  simp [dataByte, norm_of_inv h]

end Sys2Proof.Machine
end

