-- ==== Sys2Proof/Laws/PerInstr.lean ====
section
/-! SUPPORT. Statements about every instruction, one lemma per constructor (LAWS.json names the family). -/

/-- Family EncodeInRow: the byte of an instruction is one of its own row of spec/opcode_table.json
(30_encoding.md R70). -/
def Sys2Proof.Laws.EncodeInRow.Statement (i : Sys2Proof.Instr) : Prop :=
  ∃ r, i.row? = some r ∧ r.holds (Sys2Proof.encodeByte i) = true

namespace Sys2Proof.Laws.EncodeInRow

theorem data (v : Data7) : Statement (.data v) := ⟨_, rfl, by revert v; decide⟩
theorem noteOff (c : BitVec 4) : Statement (.noteOff c) := ⟨_, rfl, by revert c; decide⟩
theorem noteOn (c : BitVec 4) : Statement (.noteOn c) := ⟨_, rfl, by revert c; decide⟩
theorem noteAftertouch (c : BitVec 4) : Statement (.noteAftertouch c) := ⟨_, rfl, by revert c; decide⟩
theorem controlChange (c : BitVec 4) : Statement (.controlChange c) := ⟨_, rfl, by revert c; decide⟩
theorem programChange (c : BitVec 4) : Statement (.programChange c) := ⟨_, rfl, by revert c; decide⟩
theorem channelAftertouch (c : BitVec 4) : Statement (.channelAftertouch c) := ⟨_, rfl, by revert c; decide⟩
theorem pitchBend (c : BitVec 4) : Statement (.pitchBend c) := ⟨_, rfl, by revert c; decide⟩
theorem sysexStart : Statement .sysexStart := ⟨_, rfl, by decide⟩
theorem sysCommonF1 : Statement .sysCommonF1 := ⟨_, rfl, by decide⟩
theorem sysCommonF2 : Statement .sysCommonF2 := ⟨_, rfl, by decide⟩
theorem sysCommonF3 : Statement .sysCommonF3 := ⟨_, rfl, by decide⟩
theorem sysCommonF4 : Statement .sysCommonF4 := ⟨_, rfl, by decide⟩
theorem sysCommonF5 : Statement .sysCommonF5 := ⟨_, rfl, by decide⟩
theorem sysCommonF6 : Statement .sysCommonF6 := ⟨_, rfl, by decide⟩
theorem eox : Statement .eox := ⟨_, rfl, by decide⟩
theorem realtimeF8 : Statement .realtimeF8 := ⟨_, rfl, by decide⟩
theorem realtimeF9 : Statement .realtimeF9 := ⟨_, rfl, by decide⟩
theorem realtimeFA : Statement .realtimeFA := ⟨_, rfl, by decide⟩
theorem realtimeFB : Statement .realtimeFB := ⟨_, rfl, by decide⟩
theorem realtimeFC : Statement .realtimeFC := ⟨_, rfl, by decide⟩
theorem realtimeFD : Statement .realtimeFD := ⟨_, rfl, by decide⟩
theorem realtimeFE : Statement .realtimeFE := ⟨_, rfl, by decide⟩
theorem realtimeFF : Statement .realtimeFF := ⟨_, rfl, by decide⟩

end Sys2Proof.Laws.EncodeInRow
end

