-- ==== Sys2Proof/Laws/Step.lean ====
section
/-! SUPPORT. What the coming edge is, and what a step does with it. -/

namespace Sys2Proof.Machine

theorem nextEdge_nil {s : State} (h : s.pins = []) : nextEdge s = .idle s := by simp [nextEdge, h]

theorem nextEdge_reset {s : State} {p : Pins} {rest : List Pins} (h : s.pins = p :: rest) (hr : p.rst = true) :
    nextEdge s = .reset { s with pins := rest } := by simp [nextEdge, h, edgeOf, hr]

theorem nextEdge_idle {s : State} {p : Pins} {rest : List Pins} (h : s.pins = p :: rest) (hr : p.rst = false)
    (hv : p.in_valid = false) : nextEdge s = .idle { s with pins := rest } := by
  simp [nextEdge, h, edgeOf, hr, hv]

theorem nextEdge_stable {s : State} {p : Pins} {rest : List Pins} {b : Byte} (h : s.pins = p :: rest)
    (hr : p.rst = false) (hv : p.in_valid = true) (hb : p.in_byte = .stable b) :
    nextEdge s = .accept b { s with pins := rest } := by
  simp [nextEdge, h, edgeOf, hr, hv, hb, sampleByte]

theorem nextEdge_unstable {s : State} {p : Pins} {rest : List Pins} (h : s.pins = p :: rest)
    (hr : p.rst = false) (hv : p.in_valid = true) (hb : p.in_byte = .unstable) :
    nextEdge s = .accept (Config.unstableByte s.unstable_draws)
      { s with pins := rest, unstable_draws := s.unstable_draws + 1 } := by
  simp [nextEdge, h, edgeOf, hr, hv, hb, sampleByte]

/-- Whatever the edge is, taking it off the list touches no register. -/
theorem nextEdge_registers (s : State) :
    ∃ (pins : List Pins) (n : Nat), nextEdge s = .reset { s with pins := pins, unstable_draws := n } ∨
      nextEdge s = .idle { s with pins := pins, unstable_draws := n } ∨
      ∃ b, nextEdge s = .accept b { s with pins := pins, unstable_draws := n } := by
  cases h : s.pins with
  | nil => exact ⟨s.pins, s.unstable_draws, .inr (.inl (nextEdge_nil h))⟩
  | cons p rest =>
    cases hr : p.rst
    · cases hv : p.in_valid
      · exact ⟨rest, s.unstable_draws, .inr (.inl (nextEdge_idle h hr hv))⟩
      · cases hb : p.in_byte with
        | stable b => exact ⟨rest, s.unstable_draws, .inr (.inr ⟨b, nextEdge_stable h hr hv hb⟩)⟩
        | unstable => exact ⟨rest, s.unstable_draws + 1, .inr (.inr ⟨_, nextEdge_unstable h hr hv hb⟩)⟩
    · exact ⟨rest, s.unstable_draws, .inl (nextEdge_reset h hr)⟩

theorem step_of_reset {s s' : State} (h : nextEdge s = .reset s') : step s = .next (resetRegisters s') := by
  simp [step, h]

theorem step_of_idle {s s' : State} (h : nextEdge s = .idle s') : step s = .next (idleEdge s') := by
  simp [step, h]

theorem step_of_accept {s s' : State} {b : Byte} (h : nextEdge s = .accept b s') :
    step s = exec (decodeByte b) s' := by simp [step, h]

/-! ### Bytes and instructions -/

/-- `stepByte` on each class of bytes (40_step_and_nondata.md R71). -/
theorem stepByte_realTime {s : State} {b : Byte} (h : 0xF8#8 ≤ b) : stepByte s b = (s, none) := by
  simp [stepByte, h, realtime]

theorem stepByte_data {s : State} {b : Byte} (h : b.getLsbD 7 = false) : stepByte s b = dataByte s (dataValue b) := by
  have h8 : ¬ 0xF8#8 ≤ b := by revert h; revert b; decide
  simp only [stepByte, h8, h, if_false]
  rfl

theorem stepByte_channelStatus {s : State} {b : Byte} (h1 : 0x80#8 ≤ b) (h2 : b ≤ 0xEF#8) :
    stepByte s b = (loadStatus b s, none) := by
  have key : ∀ b : Byte, 0x80#8 ≤ b → b ≤ 0xEF#8 → ¬ 0xF8#8 ≤ b ∧ b.getLsbD 7 = true := by decide
  obtain ⟨h8, h7⟩ := key b h1 h2
  rw [stepByte, if_neg h8, if_pos h7, if_pos h2]
  rfl

theorem stepByte_resync {s : State} {b : Byte} (h1 : 0xF1#8 ≤ b) (h2 : b ≤ 0xF7#8) :
    stepByte s b = (resync s, none) := by
  have key : ∀ b : Byte, 0xF1#8 ≤ b → b ≤ 0xF7#8 →
      ¬ 0xF8#8 ≤ b ∧ b.getLsbD 7 = true ∧ ¬ b ≤ 0xEF#8 ∧ b ≠ 0xF0#8 := by decide
  obtain ⟨h8, h7, hE, h0⟩ := key b h1 h2
  rw [stepByte, if_neg h8, if_pos h7, if_neg hE, if_neg h0]
  split <;> rfl

theorem stepByte_sysexStart (s : State) : stepByte s 0xF0#8 = (loadStatus 0xF0#8 s, none) := rfl

/-- Everything one byte can do, by its class (40_step_and_nondata.md R71). -/
theorem stepByte_cases (b : Byte) :
    (0xF8#8 ≤ b ∧ byteClass b = .realTime ∧ ∀ s, stepByte s b = (s, none)) ∨
    (b ≤ 0x7F#8 ∧ byteClass b = .data ∧ ∀ s, stepByte s b = dataByte s (dataValue b)) ∨
    (0x80#8 ≤ b ∧ b ≤ 0xEF#8 ∧ byteClass b = .channelStatus ∧ ∀ s, stepByte s b = (loadStatus b s, none)) ∨
    (b = 0xF0#8 ∧ byteClass b = .sysexStart ∧ ∀ s, stepByte s b = (loadStatus 0xF0#8 s, none)) ∨
    (0xF1#8 ≤ b ∧ b ≤ 0xF7#8 ∧ (byteClass b = .eox ∨ byteClass b = .otherSystemCommon) ∧
      ∀ s, stepByte s b = (resync s, none)) := by
  have key : ∀ b : Byte, (0xF8#8 ≤ b ∧ byteClass b = .realTime) ∨
      (b ≤ 0x7F#8 ∧ byteClass b = .data ∧ b.getLsbD 7 = false) ∨
      (0x80#8 ≤ b ∧ b ≤ 0xEF#8 ∧ byteClass b = .channelStatus) ∨ (b = 0xF0#8 ∧ byteClass b = .sysexStart) ∨
      (0xF1#8 ≤ b ∧ b ≤ 0xF7#8 ∧ (byteClass b = .eox ∨ byteClass b = .otherSystemCommon)) := by decide
  rcases key b with h | h | h | h | h
  · exact .inl ⟨h.1, h.2, fun _ => stepByte_realTime h.1⟩
  · exact .inr (.inl ⟨h.1, h.2.1, fun _ => stepByte_data h.2.2⟩)
  · exact .inr (.inr (.inl ⟨h.1, h.2.1, h.2.2, fun _ => stepByte_channelStatus h.1 h.2.1⟩))
  · exact .inr (.inr (.inr (.inl ⟨h.1, h.2, fun s => h.1 ▸ stepByte_sysexStart s⟩)))
  · exact .inr (.inr (.inr (.inr ⟨h.1, h.2.1, h.2.2, fun _ => stepByte_resync h.1 h.2.1⟩)))

/-- Running the byte an instruction stands for is running the instruction: `exec` against R71's own dispatch. -/
theorem exec_eq_acceptByte (i : Instr) (s : State) : exec i s = .next (acceptByte s (encodeByte i)) := by
  have hch : ∀ k c : BitVec 4, 0x8#4 ≤ k → k ≤ 0xE#4 →
      acceptByte s (k ++ c) = deliver (chanStatus s (k ++ c)) := by
    intro k c h1 h2
    have hr : ∀ k c : BitVec 4, 0x8#4 ≤ k → k ≤ 0xE#4 → 0x80#8 ≤ k ++ c ∧ k ++ c ≤ 0xEF#8 := by decide
    rw [acceptByte, stepByte_channelStatus (hr k c h1 h2).1 (hr k c h1 h2).2]
    rfl
  cases i with
  | data v =>
    have key : ∀ v : Data7, (encodeByte (.data v)).getLsbD 7 = false ∧ dataValue (encodeByte (.data v)) = v := by decide
    rw [acceptByte, stepByte_data (key v).1, (key v).2]
    rfl
  | noteOff c => exact congrArg _ (hch 0x8#4 c (by decide) (by decide)).symm
  | noteOn c => exact congrArg _ (hch 0x9#4 c (by decide) (by decide)).symm
  | noteAftertouch c => exact congrArg _ (hch 0xA#4 c (by decide) (by decide)).symm
  | controlChange c => exact congrArg _ (hch 0xB#4 c (by decide) (by decide)).symm
  | programChange c => exact congrArg _ (hch 0xC#4 c (by decide) (by decide)).symm
  | channelAftertouch c => exact congrArg _ (hch 0xD#4 c (by decide) (by decide)).symm
  | pitchBend c => exact congrArg _ (hch 0xE#4 c (by decide) (by decide)).symm
  | sysexStart => rfl
  | sysCommonF1 => rfl
  | sysCommonF2 => rfl
  | sysCommonF3 => rfl
  | sysCommonF4 => rfl
  | sysCommonF5 => rfl
  | sysCommonF6 => rfl
  | eox => rfl
  | realtimeF8 => rfl
  | realtimeF9 => rfl
  | realtimeFA => rfl
  | realtimeFB => rfl
  | realtimeFC => rfl
  | realtimeFD => rfl
  | realtimeFE => rfl
  | realtimeFF => rfl

end Sys2Proof.Machine
end

