-- ==== Sys2Proof/Tests/Slice0.lean ====
section
/-! SUPPORT. The session's own tests. Expected results are the spec's: 95_test_vectors.md, and the patterns of
30_encoding.md R53 and R56 written out bit by bit. Then the witnesses: for every statement of
Certificates/Slice0/Obligations.lean with hypotheses, concrete data that meet all of them together. -/

open Sys2Proof Sys2Proof.Machine

namespace Sys2Proof.Tests

/-! ### Helpers -/

/-- The next state, if there is one. -/
def after : Host.Outcome State Fault Refusal → Option State
  | .next t => some t
  | .fault _ => none
  | .refused _ => none

/-- Mode `Running(b)`, or `SysEx` for 0xF0, from reset. -/
def holding (b : Byte) : State := loadStatus b State.reset

/-- Mode `Collect(b, d)` from reset. -/
def collecting (b : Byte) (d : Data7) : State := bufferFirst d (holding b)

/-- An edge that accepts a stable byte. -/
def offer (b : Byte) : Pins := ⟨false, true, .stable b⟩

/-- An edge that offers nothing. -/
def quiet : Pins := ⟨false, false, .unstable⟩

/-- The four decode registers after an instruction, as the options they encode, and the message offered. -/
def seen (o : Host.Outcome State Fault Refusal) : Option (Option Byte × Option Data7 × Option Message) :=
  (after o).map (fun t => (t.status, t.pending, t.portMessage))

/-! ### Well-formedness: the ill-formed terms each check refuses -/

theorem test_wf_refuses_noteOff_channel_0 : (Message.noteOff 0 1 2).wellFormed = false := by decide
theorem test_wf_refuses_noteOff_channel_17 : (Message.noteOff 17 1 2).wellFormed = false := by decide
theorem test_wf_refuses_noteOn_channel_0 : (Message.noteOn 0 1 2).wellFormed = false := by decide
theorem test_wf_refuses_noteAftertouch_channel_31 : (Message.noteAftertouch 31 1 2).wellFormed = false := by decide
theorem test_wf_refuses_controlChange_channel_0 : (Message.controlChange 0 1 2).wellFormed = false := by decide
theorem test_wf_refuses_programChange_channel_17 : (Message.programChange 17 1).wellFormed = false := by decide
theorem test_wf_refuses_channelAftertouch_channel_0 : (Message.channelAftertouch 0 1).wellFormed = false := by decide
theorem test_wf_refuses_pitchBend_channel_17 : (Message.pitchBend 17 8192).wellFormed = false := by decide
theorem test_wf_accepts_channel_1_and_16 :
    (Message.noteOn 1 60 127).wellFormed = true ∧ (Message.pitchBend 16 8191).wellFormed = true := by decide
/-- An instruction's ranges are its types': no term is ill formed (WellFormed.lean). -/
theorem test_wf_instr_ranges_hold_by_type : ∀ c : BitVec 4, (Instr.noteOn c).wellFormed = true := by decide

/-! ### Decoding: each row's word written out from 30_encoding.md R53, R56 -/

theorem test_decode_data : decodeByte 0b01111111#8 = .data 127#7 ∧ decodeByte 0b00000001#8 = .data 1#7 := by decide
theorem test_decode_noteOff : decodeByte 0b10000011#8 = .noteOff 3#4 := by decide
theorem test_decode_noteOn : decodeByte 0b10010000#8 = .noteOn 0#4 := by decide
theorem test_decode_noteAftertouch : decodeByte 0b10100011#8 = .noteAftertouch 3#4 := by decide
theorem test_decode_controlChange : decodeByte 0b10111111#8 = .controlChange 15#4 := by decide
theorem test_decode_programChange : decodeByte 0b11000101#8 = .programChange 5#4 := by decide
theorem test_decode_channelAftertouch : decodeByte 0b11011111#8 = .channelAftertouch 15#4 := by decide
theorem test_decode_pitchBend : decodeByte 0b11101000#8 = .pitchBend 8#4 := by decide
theorem test_decode_sysexStart : decodeByte 0b11110000#8 = .sysexStart := by decide
theorem test_decode_sysCommonF1 : decodeByte 0b11110001#8 = .sysCommonF1 := by decide
theorem test_decode_sysCommonF2 : decodeByte 0b11110010#8 = .sysCommonF2 := by decide
theorem test_decode_sysCommonF3 : decodeByte 0b11110011#8 = .sysCommonF3 := by decide
theorem test_decode_sysCommonF4 : decodeByte 0b11110100#8 = .sysCommonF4 := by decide
theorem test_decode_sysCommonF5 : decodeByte 0b11110101#8 = .sysCommonF5 := by decide
theorem test_decode_sysCommonF6 : decodeByte 0b11110110#8 = .sysCommonF6 := by decide
theorem test_decode_eox : decodeByte 0b11110111#8 = .eox := by decide
theorem test_decode_realtimeF8 : decodeByte 0b11111000#8 = .realtimeF8 := by decide
theorem test_decode_realtimeF9 : decodeByte 0b11111001#8 = .realtimeF9 := by decide
theorem test_decode_realtimeFA : decodeByte 0b11111010#8 = .realtimeFA := by decide
theorem test_decode_realtimeFB : decodeByte 0b11111011#8 = .realtimeFB := by decide
theorem test_decode_realtimeFC : decodeByte 0b11111100#8 = .realtimeFC := by decide
theorem test_decode_realtimeFD : decodeByte 0b11111101#8 = .realtimeFD := by decide
theorem test_decode_realtimeFE : decodeByte 0b11111110#8 = .realtimeFE := by decide
theorem test_decode_realtimeFF : decodeByte 0b11111111#8 = .realtimeFF := by decide
theorem test_decode_rejects_no_byte : decode [] = .rejected .noByte := by decide
theorem test_decodeTableWord : decodeTableWord 8 0x9F = some (.noteOn 15#4) := by decide
theorem test_withFetchWord_runs :
    (after (step (State.reset.withFetchWord 8 0xC5))).map (fun t => (t.st_v, t.st, t.pins)) = some (true, 0xC5#8, []) := by
  decide

/-! ### One step of each instruction, from 95_test_vectors.md -/

/-- L1.1 step 3 -/
theorem test_data_second_of_two :
    seen (exec (.data 0x7F) (collecting 0x90 0x3C)) = some (some 0x90, none, some (.noteOn 1 60 127)) := by decide
/-- V-D2: a one-data-byte kind -/
theorem test_data_one_byte : seen (exec (.data 2) (holding 0xC5)) = some (some 0xC5, none, some (.programChange 6 2)) := by
  decide
/-- L1.4 step 3: NoteOff interrupts a NoteOn -/
theorem test_noteOff : seen (exec (.noteOff 0) (collecting 0x90 0x3C)) = some (some 0x80, none, none) := by decide
/-- V-ST3: a channel status ends a SysEx block -/
theorem test_noteOn : seen (exec (.noteOn 0) (holding 0xF0)) = some (some 0x90, none, none) := by decide
/-- V-K3, first byte -/
theorem test_noteAftertouch : seen (exec (.noteAftertouch 3) State.reset) = some (some 0xA3, none, none) := by decide
/-- V-K5, first byte -/
theorem test_controlChange : seen (exec (.controlChange 15) State.reset) = some (some 0xBF, none, none) := by decide
/-- P1 step 7 -/
theorem test_programChange : seen (exec (.programChange 1) (holding 0xB0)) = some (some 0xC1, none, none) := by decide
/-- P4 step 11 -/
theorem test_channelAftertouch : seen (exec (.channelAftertouch 14) (holding 0xCF)) = some (some 0xDE, none, none) := by
  decide
/-- P3 step 2 -/
theorem test_pitchBend : seen (exec (.pitchBend 2) State.reset) = some (some 0xE2, none, none) := by decide
/-- V-ST8 step 3: a partial message is dropped -/
theorem test_sysexStart : seen (exec .sysexStart (collecting 0x90 0x3C)) = some (some 0xF0, none, none) := by decide
/-- L1.5 step 5, V-ST5 step 4 -/
theorem test_eox : seen (exec .eox (holding 0xF0)) = some (none, none, none) ∧
    seen (exec .eox (holding 0x90)) = some (none, none, none) := by decide
/-- V-ST10 -/
theorem test_sysCommonF1 : seen (exec .sysCommonF1 (holding 0x93)) = some (none, none, none) := by decide
theorem test_sysCommonF2 : seen (exec .sysCommonF2 (holding 0x93)) = some (none, none, none) := by decide
theorem test_sysCommonF3 : seen (exec .sysCommonF3 (holding 0x93)) = some (none, none, none) := by decide
theorem test_sysCommonF4 : seen (exec .sysCommonF4 (holding 0x93)) = some (none, none, none) := by decide
theorem test_sysCommonF5 : seen (exec .sysCommonF5 (holding 0x93)) = some (none, none, none) := by decide
/-- V-ST9 step 3 -/
theorem test_sysCommonF6 : seen (exec .sysCommonF6 (collecting 0x90 0x3C)) = some (none, none, none) := by decide
/-- V-RT5 -/
theorem test_realtimeF8 : seen (exec .realtimeF8 (collecting 0xB3 7)) = some (some 0xB3, some 7, none) := by decide
theorem test_realtimeF9 : seen (exec .realtimeF9 (collecting 0xB3 7)) = some (some 0xB3, some 7, none) := by decide
theorem test_realtimeFA : seen (exec .realtimeFA (collecting 0xB3 7)) = some (some 0xB3, some 7, none) := by decide
theorem test_realtimeFB : seen (exec .realtimeFB (collecting 0xB3 7)) = some (some 0xB3, some 7, none) := by decide
theorem test_realtimeFC : seen (exec .realtimeFC (collecting 0xB3 7)) = some (some 0xB3, some 7, none) := by decide
theorem test_realtimeFD : seen (exec .realtimeFD (collecting 0xB3 7)) = some (some 0xB3, some 7, none) := by decide
theorem test_realtimeFE : seen (exec .realtimeFE (collecting 0xB3 7)) = some (some 0xB3, some 7, none) := by decide
/-- V-RT2: 0xFF resets nothing -/
theorem test_realtimeFF : seen (exec .realtimeFF (collecting 0x90 0x3C)) = some (some 0x90, some 0x3C, none) := by decide

/-! ### The data path's corners, helpers, port and edges -/

/-- V-N1, V-N2: register states outside the invariants -/
theorem test_norm_status_vectors :
    seen (exec (.data 0x10) (holding 0xF3)) = some (none, none, none) ∧
    seen (exec (.data 0x20) (collecting 0xC0 0x10)) = some (none, none, none) := by decide
/-- V-N3, V-N4 -/
theorem test_norm_pending_vectors :
    seen (exec (.data 0x20) (bufferFirst 0x10 State.reset)) = some (none, none, none) ∧
    seen (exec (.data 0x20) (collecting 0xF0 0x10)) = some (none, none, none) := by decide
/-- V-H1 to V-H6 -/
theorem test_req_vectors :
    req 0x7F = .unsupported ∧ req 0x9F = .two ∧ req 0xEF = .two ∧ req 0xCF = .one ∧ req 0xD0 = .one ∧
    req 0xF0 = .unsupported ∧ supportsRunningStatus 0x7F = false ∧ supportsRunningStatus 0x80 = true ∧
    supportsRunningStatus 0xEF = true ∧ supportsRunningStatus 0xF0 = false := by decide
/-- V-S1 to V-S8 -/
theorem test_synth_vectors :
    synth 0x90 0x3C (some 0x7F) = some (.noteOn 1 60 127) ∧ synth 0x90 0x3C none = none ∧
    synth 0xF0 1 (some 2) = none ∧ synth 0x70 1 (some 2) = none ∧ synth 0xC5 1 none = some (.programChange 6 1) ∧
    synth 0xC5 1 (some 0x63) = some (.programChange 6 1) ∧ synth 0xE5 0x7F (some 0) = some (.pitchBend 6 127) ∧
    synth 0xE0 0 none = none := by decide
/-- V-K1, V-K3 to V-K12: the second bytes and the port -/
theorem test_port_vectors :
    (synth 0x80 127 (some 127)).map portOf = some ⟨0, 1, 127, 127⟩ ∧
    (synth 0xA3 64 (some 34)).map portOf = some ⟨2, 4, 64, 34⟩ ∧
    (synth 0xBF 0x78 (some 0)).map portOf = some ⟨3, 16, 120, 0⟩ ∧
    (synth 0xDF 0x7F none).map portOf = some ⟨5, 16, 127, 0⟩ ∧
    (synth 0xE0 1 (some 0)).map portOf = some ⟨6, 1, 0, 1⟩ ∧
    (synth 0xE0 0 (some 1)).map portOf = some ⟨6, 1, 0, 128⟩ ∧
    (synth 0xE0 127 (some 127)).map portOf = some ⟨6, 1, 0, 16383⟩ ∧
    (synth 0xEF 0x7F (some 0x3F)).map portOf = some ⟨6, 16, 0, 8191⟩ := by decide
/-- V-P1 E5: the fields hold while `msg_valid` falls -/
theorem test_fields_hold_on_an_idle_edge :
    (after (step { emit (.noteOn 1 60 127) (holding 0x90) with pins := [quiet] })).map
      (fun t => (t.msg_valid, t.port, t.status)) = some (false, ⟨1, 1, 60, 127⟩, some 0x90) := by decide
/-- V-P1 E9: reset wins over a byte -/
theorem test_reset_wins_over_a_byte :
    (after (step { emit (.programChange 4 2) (holding 0xC3) with pins := [⟨true, true, .stable 3⟩, offer 3] })) =
      some { State.reset with pins := [offer 3] } := by decide
/-- 95_test_vectors.md 2.5: labels -/
theorem test_labels :
    label State.reset (.byte 0x3C) = .invStrayData ∧ label State.reset (.byte 0xF7) = .invLoneEox ∧
    label (holding 0x90) (.byte 0x80) = .statusLoaded ∧ label (collecting 0x90 0x3C) (.byte 0x80) = .invInterrupted ∧
    label (holding 0xF0) (.byte 0xF0) = .invInterrupted ∧ label (holding 0x90) (.byte 0xF0) = .sysexStart ∧
    label (holding 0xF0) (.byte 0xF7) = .sysexEnd ∧ label (holding 0xC0) (.byte 0xF3) = .invUnsupportedStatus ∧
    label (holding 0xF0) (.byte 1) = .sysexPayload ∧ label (holding 0x90) (.byte 1) = .dataBuffered ∧
    label (collecting 0x90 1) (.byte 1) = .delivered ∧ label (collecting 0x90 1) (.byte 0xF8) = .absorbRt ∧
    label State.reset .idle = .idle := by decide
/-- L1.2: running status, over the byte list -/
theorem test_run_running_status :
    (runBytes State.reset [0x90, 0x3C, 0x7F, 0x3E, 0x00]).2 = [.noteOn 1 60 127, .noteOn 1 62 0] := by decide
/-- 40_step_and_nondata.md R84 case 2: the call view leaves the interrupting status for the next call (L1.4) -/
theorem test_call_leaves_a_status_unconsumed :
    decodeCall callEmpty [0x90, 0x3C, 0x80, 0x40] = ⟨callEmpty, [0x80, 0x40], none⟩ := by decide

/-! ### Witnesses: data that meet the hypotheses of each statement -/

/-- ResetEdgeRestoresEveryRegister, NoByteIsAcceptedAtAResetEdge, RisingEdgeRunsTheByteStep (first clause) -/
theorem witness_reset_edge :
    ∃ (s t : State) (p q : Pins) (more : List Pins), s.pins = p :: q :: more ∧ p.rst = true ∧ q.rst = true ∧
      step s = .next t :=
  ⟨{ collecting 0x90 0x3C with pins := [⟨true, true, .stable 3⟩, ⟨true, false, .unstable⟩, quiet] }, _, _, _, _, rfl, rfl,
    rfl, rfl⟩

/-- IdleEdgeKeepsTheDecodeState, RisingEdgeRunsTheByteStep (second clause) -/
theorem witness_idle_edge :
    ∃ (s : State) (p : Pins) (rest : List Pins), s.pins = p :: rest ∧ p.rst = false ∧ p.in_valid = false :=
  ⟨{ collecting 0x90 0x3C with pins := [quiet, offer 1] }, _, _, rfl, rfl, rfl⟩

/-- EmptyPinListIsAnIdleEdge -/
theorem witness_empty_pins : (collecting 0x90 0x3C).pins = [] := by decide

/-- RisingEdgeRunsTheByteStep, third clause with a message and without -/
theorem witness_accepting_edge :
    (stepByte (collecting 0x90 0x3C) 0x7F).2 = some (.noteOn 1 60 127) ∧ (stepByte (holding 0x90) 0x7F).2 = none ∧
    (offer 0x7F).rst = false ∧ (offer 0x7F).in_valid = true ∧ (offer 0x7F).in_byte = .stable 0x7F := by decide

/-- AcceptedByteRunsItsInstruction -/
theorem witness_accepted_byte :
    ({ holding 0x90 with pins := [offer 0x9F, quiet] } : State).pins = ⟨false, true, .stable 0x9F⟩ :: [quiet] ∧
    decode [0x9F] = .ok (.noteOn 15) [] := by decide

/-- UnstableByteRunsAFreeByte -/
theorem witness_unstable_byte :
    ({ holding 0x90 with pins := [⟨false, true, .unstable⟩, quiet] } : State).pins = ⟨false, true, .unstable⟩ :: [quiet] := by
  decide

/-- PresentedWordRunsAtTheNextEdge -/
theorem witness_presented_word : decodeTableWord 8 0xF0 = some .sysexStart := by decide

/-- RebindingTheSourceKeepsAPartialMessage -/
theorem witness_rebinding :
    (collecting 0x90 0x3C).st_v = true ∧ (collecting 0x90 0x3C).pd_v = true ∧ inv (collecting 0x90 0x3C) = true ∧
    synth 0x90 0x3C (some 0x7F) = some (.noteOn 1 60 127) := by decide

/-- ChannelStatusBecomesTheHeldStatus, OtherSystemCommonEmptiesTheDecodeState, RealTimeBytesAreAbsorbedInEveryMode: the
bounds of the label clauses -/
theorem witness_label_bounds :
    0x80#8 ≤ 0x80#8 ∧ 0xEF#8 ≤ 0xEF#8 ∧ 0xF1#8 ≤ 0xF1#8 ∧ 0xF6#8 ≤ 0xF6#8 ∧ 0xF8#8 ≤ 0xF8#8 ∧
    label State.reset (.byte 0x80) = .statusLoaded ∧ label State.reset (.byte 0xEF) = .statusLoaded ∧
    label State.reset (.byte 0xF1) = .invUnsupportedStatus ∧ label State.reset (.byte 0xF6) = .invUnsupportedStatus ∧
    label State.reset (.byte 0xF8) = .absorbRt ∧ label State.reset (.byte 0xFF) = .absorbRt := by decide

/-- StrayDataByteIsDiscarded, SysexPayloadByteIsDiscarded -/
theorem witness_stray_and_payload :
    inv State.reset = true ∧ State.reset.st_v = false ∧
    inv (holding 0xF0) = true ∧ (holding 0xF0).st_v = true ∧ (holding 0xF0).st = 0xF0 := by decide

/-- OneDataByteMessageIsDelivered, at the bounds of both families -/
theorem witness_one_data_byte :
    ∀ b ∈ [0xC0#8, 0xCF#8, 0xD0#8, 0xDF#8],
      inv (holding b) = true ∧ (holding b).st_v = true ∧ 0xC0#8 ≤ (holding b).st ∧ (holding b).st ≤ 0xDF#8 := by decide

/-- FirstOfTwoDataBytesIsBuffered, at the bounds of both ranges -/
theorem witness_first_of_two :
    ∀ b ∈ [0x80#8, 0xBF#8, 0xE0#8, 0xEF#8], (holding b).st_v = true ∧ (holding b).pd_v = false ∧
      (0x80#8 ≤ (holding b).st ∧ (holding b).st ≤ 0xBF#8 ∨ 0xE0#8 ≤ (holding b).st ∧ (holding b).st ≤ 0xEF#8) := by decide

/-- SecondOfTwoDataBytesDelivers, first clause at its bounds -/
theorem witness_second_of_two :
    ∀ b ∈ [0x80#8, 0xBF#8], (collecting b 1).st_v = true ∧ (collecting b 1).pd_v = true ∧
      0x80#8 ≤ (collecting b 1).st ∧ (collecting b 1).st ≤ 0xBF#8 := by decide

/-- SecondOfTwoDataBytesDelivers, second clause at its bounds -/
theorem witness_second_of_pitch_bend :
    ∀ b ∈ [0xE0#8, 0xEF#8], (collecting b 127).st_v = true ∧ (collecting b 127).pd_v = true ∧
      0xE0#8 ≤ (collecting b 127).st ∧ (collecting b 127).st ≤ 0xEF#8 := by decide

/-- DataByteOutsideTheInvariantEmpties: both sides of `INV` -/
theorem witness_inside_and_outside_inv :
    inv (collecting 0xE0 1) = true ∧ inv (holding 0xF3) = false ∧ inv (collecting 0xC0 1) = false := by decide

/-- OnlyChannelStatusesRun: a delivering step, and the bounds 0xF0 (which leaves a status held) and 0xF7 -/
theorem witness_only_channel_statuses_run :
    (stepByte (collecting 0xEF 0) 0x7F).2.isSome = true ∧ (acceptByte (holding 0x90) 0xF0).st_v = true ∧
    0xF0#8 ≤ 0xF7#8 := by decide

/-- SynthesizerBuildsEachKind: the bounds of the failing clauses -/
theorem witness_synth_failures :
    (∀ s ∈ [0x80#8, 0xBF#8, 0xE0#8, 0xEF#8], 0x80#8 ≤ s ∧ s ≤ 0xBF#8 ∨ 0xE0#8 ≤ s ∧ s ≤ 0xEF#8) ∧
    (∀ s ∈ [0x00#8, 0x7F#8, 0xF0#8, 0xFF#8], s ≤ 0x7F#8 ∨ 0xF0#8 ≤ s) := by decide

/-- SynthesizedMessagesAreInRange, OutputEncodingOfEachKind -/
theorem witness_synthesized_message :
    synth 0xEF 0x7F (some 0x3F) = some (.pitchBend 16 8191) ∧ (Message.pitchBend 16 8191).wellFormed = true := by decide

/-- MessageFieldsHoldWithoutADelivery -/
theorem witness_fields_hold :
    ∃ s t : State, (∀ (p : Pins) (rest : List Pins), s.pins = p :: rest → p.rst = false) ∧ step s = .next t ∧
      t.msg_valid = false :=
  ⟨{ emit (.noteOn 1 60 127) (holding 0x90) with pins := [offer 0x3C] }, _, fun _ _ h => by cases h; rfl, rfl, rfl⟩

/-- OnlyACompletingDataByteDelivers -/
theorem witness_completing_data_byte :
    ∃ t, exec (.data 0x7F) (collecting 0x90 0x3C) = .next t ∧ t.msg_valid = true := ⟨_, rfl, rfl⟩

/-- DecodeAndEncodeAgree: a stream that decodes and the one that is rejected -/
theorem witness_decode : decode [0x9F, 0x3C] = .ok (.noteOn 15) [0x3C] ∧ decode [] = .rejected .noByte := by decide

/-- StepKeepsTheDecodeInvariant, StepKeepsThePortInRange, SafeStatesRunSafelyForever -/
theorem witness_safe_step :
    ∃ s t : State, ((s.st_v = true → (0x80#8 ≤ s.st ∧ s.st ≤ 0xEF#8) ∨ s.st = 0xF0#8) ∧
      (s.pd_v = true → s.st_v = true ∧ req s.st = .two)) ∧ portInv s = true ∧ safe s = true ∧ step s = .next t :=
  ⟨{ emit (.noteOn 1 60 127) (collecting 0x90 0x3C) with pins := [offer 0x7F] }, _, by decide, by decide, by decide, rfl⟩

/-- LabelCodesAreDistinct -/
theorem witness_label_codes : labelCode .idle = labelCode .idle := by decide

/-- RegistersRefineTheModeTable, RunningStatusDeliversOneMessagePerGroup (both families) -/
theorem witness_modes :
    modeOf (collecting 0x90 0x3C) = some (.collect 0x90 0x3C) ∧ modeOf (holding 0xE3) = some (.running 0xE3) ∧
    req 0xE3 = .two ∧ modeOf (holding 0xD3) = some (.running 0xD3) ∧ req 0xD3 = .one := by decide

/-- IncompleteOutcomesKeepWhatWasCollected: a buffered byte and a SysEx block, codes at both ends of the range -/
theorem witness_incomplete_outcomes :
    inv (collecting 0x90 0x3C) = true ∧ labelCode (label (collecting 0x90 0x3C) (.byte 0xF8)) = 2 ∧
    (collecting 0x90 0x3C).pd_v = true ∧ inv (holding 0xF0) = true ∧ labelCode (label (holding 0xF0) (.byte 1)) = 6 ∧
    isSysex (holding 0xF0) = true := by decide

/-- ResultDependsOnlyOnTheLiveDecodeState: two states that differ in every dead bit -/
theorem witness_live_decode_state :
    ∃ s₁ s₂ t₁ t₂ : State, s₁ ≠ s₂ ∧ s₁.status = s₂.status ∧ s₁.pending = s₂.pending ∧
      exec (.data 1) s₁ = .next t₁ ∧ exec (.data 1) s₂ = .next t₂ :=
  ⟨holding 0x90, { emit (.pitchBend 1 3) (holding 0x90) with pd := 5 }, _, _, by decide, by decide, by decide, rfl, rfl⟩

/-- FullMessageFormsDeliverOneMessage -/
theorem witness_full_message_forms :
    (∀ b ∈ [0xF8#8, 0xFF#8], 0xF8#8 ≤ b) ∧ req 0x80 = .two ∧ req 0xEF = .two ∧ req 0xC0 = .one ∧ req 0xDF = .one := by
  decide

/-- SysexBlockDeliversNothing, NothingIsDeliveredBeforeAStatusByte -/
theorem witness_streams_without_status :
    (∀ b ∈ [0x00#8, 0x7F#8, 0xF8#8, 0xFF#8], b ≤ 0x7F#8 ∨ 0xF8#8 ≤ b) ∧ isEmpty State.reset = true := by decide

/-- IdleAndSysexAreOutputEquivalent -/
theorem witness_idle_and_sysex : modeOf State.reset = some .idle ∧ modeOf (holding 0xF0) = some .sysex := by decide

/-- IdleEdgesDoNotChangeTheMessages -/
theorem witness_orderly_pins :
    ∀ p ∈ ({ State.reset with pins := [offer 0x90, quiet, offer 0x3C, quiet, offer 0x7F] } : State).pins,
      p.orderly = true := by decide

/-- DeliveredMessageIsTheLastStatusWithItsGroup: L1.3 meets the right side, so the equivalence is not of two falsehoods -/
theorem witness_delivered_group :
    (stepByte (runBytes State.reset [0x90, 0xF8, 0x3C]).1 0x7F).2 = some (.noteOn 1 60 127) := by decide

/-- CallViewDeliversTheSameMessages: a state inside the invariants, and a partition that delivers -/
theorem witness_call_view :
    inv (collecting 0x90 0x3C) = true ∧
    (runCalls callEmpty [] [[0x90], [0x3C, 0xF8], [], [0x7F]]).2.2 = [.noteOn 1 60 127] := by decide

/-- InstancesShareNothing -/
theorem witness_instances :
    ∃ (s t : State), (0 : Nat) ≠ 1 ∧ ([State.reset, s] : System)[1]? = some s ∧ step s = .next t :=
  ⟨{ holding 0xC0 with pins := [offer 5] }, _, by decide, rfl, rfl⟩

end Sys2Proof.Tests
end

section
/-! The state after reset, and the independence of several instances: one instance's edge is `List.modify` at its place in
the list, so the frame and commuting facts are the library's facts about `List.modify`. -/

namespace Sys2Proof.Machine

/-- Settles O1: each register of the reset state is written out in the definition of `State.reset`. -/
theorem resetStateHoldsTheResetValues : Obligations.ResetStateHoldsTheResetValues :=
  ⟨rfl, rfl, rfl, rfl, rfl, rfl, rfl, rfl, rfl⟩

/-- Every edge has a next state: no step faults or is refused (60_exceptions.md R109). -/
theorem exists_step_eq_next (s : State) : ∃ t, step s = .next t := by
  cases h : nextEdge s with
  | reset s' => exact ⟨_, step_of_reset h⟩
  | idle s' => exact ⟨_, step_of_idle h⟩
  | accept b s' => exact ⟨_, (step_of_accept h).trans (exec_eq_acceptByte _ _)⟩

/-- The state after one edge, as a total function; the branches that keep `s` are never taken (`step_eq_next`). -/
def nextState (s : State) : State :=
  match step s with
  | .next t => t
  | .fault _ => s
  | .refused _ => s

theorem nextState_of_step {s t : State} (h : step s = .next t) : nextState s = t := by simp [nextState, h]

theorem step_eq_next (s : State) : step s = .next (nextState s) := by
  obtain ⟨t, h⟩ := exists_step_eq_next s
  rw [h, nextState_of_step h]

/-- An edge of instance `k` acts on the list at place `k` only. -/
theorem stepInstance_eq_modify (k : Nat) (sys : System) : stepInstance k sys = sys.modify k nextState := by
  rw [List.modify_eq_set_getElem?]
  cases hk : sys[k]? with
  | none => simp [stepInstance, hk]
  | some s => simp [stepInstance, hk, step_eq_next]

theorem stepInstance_getElem?_ne {j k : Nat} (sys : System) (h : j ≠ k) : (stepInstance k sys)[j]? = sys[j]? := by
  rw [stepInstance_eq_modify, List.getElem?_modify_ne _ _ h.symm]

theorem stepInstance_comm {j k : Nat} (sys : System) (h : j ≠ k) :
    stepInstance j (stepInstance k sys) = stepInstance k (stepInstance j sys) := by
  simp only [stepInstance_eq_modify]
  exact List.modify_modify_ne _ _ _ h.symm

theorem stepInstance_getElem?_self {k : Nat} {sys : System} {s t : State} (hk : sys[k]? = some s)
    (hs : step s = .next t) : (stepInstance k sys)[k]? = some t := by
  rw [stepInstance_eq_modify, List.getElem?_modify_eq, hk, Option.map_eq_map, Option.map_some, nextState_of_step hs]

/-- Settles O57: an instance's edge changes its own place in the list only, so it leaves every other place alone, and edges
at two different places commute. -/
theorem instancesShareNothing : Obligations.InstancesShareNothing := fun sys _ _ hjk =>
  ⟨stepInstance_getElem?_ne sys hjk, stepInstance_comm sys hjk, fun _ _ => stepInstance_getElem?_self⟩

end Sys2Proof.Machine
end

section
/-! The rising edge of 20_memory.md R34: the byte an edge accepts runs R71's own step, with its port write. The link is that
encoding the decoded instruction gives the byte back, so that `exec_eq_acceptByte` speaks of the accepted byte itself. -/

namespace Sys2Proof

@[simp] theorem encodeByte_decodeByte : ∀ b : Byte, encodeByte (decodeByte b) = b := by decide

end Sys2Proof

namespace Sys2Proof.Machine

theorem exec_decodeByte (b : Byte) (s : State) : exec (decodeByte b) s = .next (acceptByte s b) := by
  rw [exec_eq_acceptByte, encodeByte_decodeByte]

theorem step_of_stable {s : State} {p : Pins} {rest : List Pins} {b : Byte} (h : s.pins = p :: rest)
    (hr : p.rst = false) (hv : p.in_valid = true) (hb : p.in_byte = .stable b) :
    step s = .next (acceptByte { s with pins := rest } b) :=
  (step_of_accept (nextEdge_stable h hr hv hb)).trans (exec_decodeByte _ _)

theorem acceptByte_of_some {s : State} {b : Byte} {m : Message} (h : (stepByte s b).2 = some m) :
    acceptByte s b = emit m (stepByte s b).1 := by
  rw [← deliver_some, ← h]
  rfl

theorem acceptByte_of_none {s : State} {b : Byte} (h : (stepByte s b).2 = none) :
    acceptByte s b = noMessage (stepByte s b).1 := by
  rw [← deliver_none, ← h]
  rfl

/-- Settles O6: the three cases are the three kinds of edge; an accepted byte writes the port by what its step answers. -/
theorem risingEdgeRunsTheByteStep : Obligations.RisingEdgeRunsTheByteStep := by
  intro s p rest hp
  refine ⟨fun hr => step_of_reset (nextEdge_reset hp hr), fun hr hv => step_of_idle (nextEdge_idle hp hr hv), ?_⟩
  intro b hr hv hb
  rw [step_of_stable hp hr hv hb]
  constructor
  · intro m hm
    rw [acceptByte_of_some hm]
    rfl
  · intro hnone
    rw [acceptByte_of_none hnone]
    rfl

/-- Settles O11: `in_ready` is constantly 1, and no step faults or is refused. -/
theorem decoderIsAlwaysReady : Obligations.DecoderIsAlwaysReady :=
  fun s => ⟨rfl, exists_step_eq_next s⟩

end Sys2Proof.Machine
end

section
/-! Byte classes and message encodings: the tables of 30_encoding.md R53 and R67 against the model's tests. -/

namespace Sys2Proof

/-- The ordered tests of R54 give each class its range of values, checked on the 256 bytes. -/
theorem byteClass_iff_range : ∀ b : Byte,
    (byteClass b = .data ↔ b ≤ 0x7F#8) ∧ (byteClass b = .channelStatus ↔ 0x80#8 ≤ b ∧ b ≤ 0xEF#8) ∧
    (byteClass b = .sysexStart ↔ b = 0xF0#8) ∧ (byteClass b = .otherSystemCommon ↔ 0xF1#8 ≤ b ∧ b ≤ 0xF6#8) ∧
    (byteClass b = .eox ↔ b = 0xF7#8) ∧ (byteClass b = .realTime ↔ 0xF8#8 ≤ b) := by decide

theorem byteClass_decodeByte : ∀ b : Byte, (decodeByte b).byteClass = byteClass b := by decide

/-- Settles O36: the ranges of the ordered tests, and the class of the decoded instruction. -/
theorem byteClassesByValue : Obligations.ByteClassesByValue := by
  intro b
  obtain ⟨hdata, hchan, hsysex, hcommon, heox, hrt⟩ := byteClass_iff_range b
  exact ⟨hdata, hchan, hsysex, hcommon, heox, hrt, byteClass_decodeByte b⟩

theorem Message.wellFormed_iff (m : Message) :
    m.wellFormed = true ↔ 1 ≤ m.channel.toNat ∧ m.channel.toNat ≤ 16 := by
  simp [Message.wellFormed, channelInRange]

end Sys2Proof

namespace Sys2Proof.Machine

@[simp] theorem portOf_channel (m : Message) : (portOf m).channel = m.channel := by cases m <;> rfl

theorem portOf_kind_ne_seven (m : Message) : (portOf m).kind ≠ 7#3 := by cases m <;> simp [portOf]

/-- Settles O30: the table is the definition of `portOf`; no row has kind 7, and the port's channel is the message's. -/
theorem outputEncodingOfEachKind : Obligations.OutputEncodingOfEachKind := by
  refine ⟨fun ch a b x => ⟨rfl, rfl, rfl, rfl, rfl, rfl, rfl⟩, fun m => ⟨portOf_kind_ne_seven m, fun h => ?_⟩⟩
  rw [portOf_channel]
  exact (Message.wellFormed_iff m).mp h

end Sys2Proof.Machine
end

section
/-! Real-Time bytes drop out of every stream (30_encoding.md R62). A simulation: the relation says that two states agree on
the four decode registers, every byte's step keeps it and delivers the same from both, and a Real-Time byte's step alone
keeps it too. -/

namespace Sys2Proof.Machine

/-- The two states hold the same decode registers, dead bits included; port, pins and draws are free. -/
structure SameDecode (s t : State) : Prop where
  st_v : s.st_v = t.st_v
  st : s.st = t.st
  pd_v : s.pd_v = t.pd_v
  pd : s.pd = t.pd

theorem SameDecode.refl (s : State) : SameDecode s s := ⟨rfl, rfl, rfl, rfl⟩

/-- The two answers deliver the same message and agree on the decode registers. -/
def SameAnswer (r q : State × Option Message) : Prop := r.2 = q.2 ∧ SameDecode r.1 q.1

section
variable {s t : State}

theorem SameDecode.resync (h : SameDecode s t) : SameDecode (resync s) (resync t) := ⟨rfl, h.st, rfl, h.pd⟩

theorem SameDecode.loadStatus (h : SameDecode s t) (b : Byte) : SameDecode (loadStatus b s) (loadStatus b t) :=
  ⟨rfl, rfl, rfl, h.pd⟩

theorem SameDecode.inv (h : SameDecode s t) : inv s = inv t := by
  simp only [Machine.inv, h.st_v, h.st, h.pd_v]

theorem SameDecode.norm (h : SameDecode s t) : SameDecode (norm s) (norm t) := by
  cases ht : Machine.inv t
  · rw [norm_of_not_inv ht, norm_of_not_inv (h.inv.trans ht)]
    exact h.resync
  · rwa [norm_of_inv ht, norm_of_inv (h.inv.trans ht)]

theorem SameDecode.complete (h : SameDecode s t) (m : Option Message) : SameAnswer (complete s m) (complete t m) := by
  cases m with
  | none => exact ⟨rfl, h.resync⟩
  | some m => exact ⟨rfl, h.st_v, h.st, rfl, h.pd⟩

theorem SameDecode.dataNormalized (h : SameDecode s t) (v : Data7) :
    SameAnswer (dataNormalized s v) (dataNormalized t v) := by
  simp only [Machine.dataNormalized, oneByte, secondOfTwo, h.st_v, h.st, h.pd_v, h.pd]
  split_ifs
  · exact ⟨rfl, h.resync⟩
  · exact ⟨rfl, h⟩
  · exact h.complete _
  · exact ⟨rfl, h.st_v, h.st, rfl, rfl⟩
  · exact h.complete _

/-- A byte delivers the same from two states that agree on the decode registers, and they still agree after it. -/
theorem SameDecode.stepByte (h : SameDecode s t) (b : Byte) : SameAnswer (stepByte s b) (stepByte t b) := by
  rcases stepByte_cases b with ⟨-, -, hs⟩ | ⟨-, -, hs⟩ | ⟨-, -, -, hs⟩ | ⟨-, -, hs⟩ | ⟨-, -, -, hs⟩ <;>
    rw [hs, hs]
  · exact ⟨rfl, h⟩
  · exact h.norm.dataNormalized _
  · exact ⟨rfl, h.loadStatus b⟩
  · exact ⟨rfl, h.loadStatus 0xF0#8⟩
  · exact ⟨rfl, h.resync⟩

theorem SameDecode.acceptByte (h : SameDecode s t) (b : Byte) : SameDecode (acceptByte s b) (acceptByte t b) := by
  obtain ⟨-, h'⟩ := h.stepByte b
  exact ⟨by simpa [Machine.acceptByte] using h'.st_v, by simpa [Machine.acceptByte] using h'.st,
    by simpa [Machine.acceptByte] using h'.pd_v, by simpa [Machine.acceptByte] using h'.pd⟩

/-- A Real-Time byte leaves the decode registers alone (40_step_and_nondata.md R73). -/
theorem SameDecode.acceptByte_realTime (h : SameDecode s t) {b : Byte} (hb : 0xF8#8 ≤ b) :
    SameDecode (Machine.acceptByte s b) t := by
  rw [acceptByte_of_none (by rw [stepByte_realTime hb]), stepByte_realTime hb]
  exact ⟨h.st_v, h.st, h.pd_v, h.pd⟩

/-- The simulation along a stream: one side takes the whole of it, the other only the bytes that are not Real-Time. -/
theorem SameDecode.runBytes_filter (h : SameDecode s t) (bs : List Byte) :
    (runBytes s bs).2 = (runBytes t (bs.filter (fun b => b < 0xF8#8))).2 ∧
    SameDecode (runBytes s bs).1 (runBytes t (bs.filter (fun b => b < 0xF8#8))).1 := by
  induction bs generalizing s t with
  | nil => exact ⟨rfl, h⟩
  | cons b bs ih =>
    by_cases hb : b < 0xF8#8
    · rw [List.filter_cons_of_pos (by simpa using hb)]
      obtain ⟨hmsgs, hregs⟩ := ih (h.acceptByte b)
      exact ⟨congrArg₂ _ (congrArg _ (h.stepByte b).1) hmsgs, hregs⟩
    · rw [List.filter_cons_of_neg (by simpa using hb)]
      have hrt : 0xF8#8 ≤ b := BitVec.not_lt.mp hb
      obtain ⟨hmsgs, hregs⟩ := ih (h.acceptByte_realTime hrt)
      exact ⟨by simpa [runBytes, stepByte_realTime hrt] using hmsgs, hregs⟩

end

/-- Settles O48: the simulation from a state to itself. -/
theorem realTimeBytesDropOutOfEveryStream : Obligations.RealTimeBytesDropOutOfEveryStream := by
  intro bs s
  obtain ⟨hmsgs, hregs⟩ := (SameDecode.refl s).runBytes_filter bs
  exact ⟨hmsgs, hregs.st_v, hregs.st, hregs.pd_v, hregs.pd⟩

end Sys2Proof.Machine
end

section
/-! What is delivered is the last status with its completed group (30_encoding.md R60). The invariant relates the stream read
so far to the registers: `GroupHeld S ds s` says what `s` holds once the status `S` and then the data bytes `ds` have been
read. EMPTY at reset is what a System Common status leaves, so a stream with no status at all needs no case of its own.
Real-Time bytes are taken out first, by the simulation of R62. -/

namespace Sys2Proof.Machine

/-! ### The data path on the states a stream leaves -/

section
variable {s : State}

/-- A status that requires data bytes is a channel status (42_synthesizer.md R94). -/
theorem channelStatus_of_req : ∀ S : Byte, req S = .one ∨ req S = .two → 0x80#8 ≤ S ∧ S ≤ 0xEF#8 := by decide

theorem ne_sysexStart_of_req : ∀ S : Byte, req S = .one ∨ req S = .two → S ≠ 0xF0#8 := by decide

theorem inv_of_running (hv : s.st_v = true) (hreq : req s.st = .one ∨ req s.st = .two)
    (hp : s.pd_v = true → req s.st = .two) : inv s = true :=
  (inv_iff s).mpr ⟨fun _ => .inl (channelStatus_of_req _ hreq), fun h => ⟨hv, hp h⟩⟩

/-- With no running status a data byte delivers nothing and leaves none (41_data_bytes.md R86, R87). -/
theorem dataByte_of_noRunning (hst : s.st_v = true → s.st = 0xF0#8) (hp : s.pd_v = false) (v : Data7) :
    ∃ t, dataByte s v = (t, none) ∧ (t.st_v = true → t.st = 0xF0#8) ∧ t.pd_v = false := by
  have hinv : inv s = true := (inv_iff s).mpr ⟨fun h => .inr (hst h), fun h => by simp [hp] at h⟩
  rw [dataByte_of_inv hinv]
  cases hv : s.st_v
  · exact ⟨resync s, by simp [dataNormalized, stray, hv], by simp, rfl⟩
  · exact ⟨s, by simp [dataNormalized, sysexPayload, hv, hst hv], hst, hp⟩

/-- The one data byte completes the message (R88). -/
theorem dataByte_of_req_one (hv : s.st_v = true) (h1 : req s.st = .one) (hp : s.pd_v = false) (v : Data7) :
    ∃ m, synth s.st v none = some m ∧ dataByte s v = (clearPending s, some m) := by
  obtain ⟨m, hm⟩ := synth_of_req_one s.st v h1
  refine ⟨m, hm, ?_⟩
  rw [dataByte_of_inv (inv_of_running hv (.inl h1) (by simp [hp]))]
  simp [dataNormalized, hv, ne_sysexStart_of_req _ (.inl h1), h1, oneByte, hm, complete]

/-- The first of two data bytes is buffered (R89). -/
theorem dataByte_of_req_two_first (hv : s.st_v = true) (h2 : req s.st = .two) (hp : s.pd_v = false) (v : Data7) :
    dataByte s v = (bufferFirst v s, none) := by
  rw [dataByte_of_inv (inv_of_running hv (.inr h2) (fun _ => h2))]
  simp [dataNormalized, hv, ne_sysexStart_of_req _ (.inr h2), h2, hp, firstOfTwo]

/-- The second of two data bytes completes the message (R90). -/
theorem dataByte_of_req_two_second (hv : s.st_v = true) (h2 : req s.st = .two) (hp : s.pd_v = true) (v : Data7) :
    ∃ m, synth s.st s.pd (some v) = some m ∧ dataByte s v = (clearPending s, some m) := by
  obtain ⟨m, hm⟩ := synth_of_req_two s.st s.pd v h2
  refine ⟨m, hm, ?_⟩
  rw [dataByte_of_inv (inv_of_running hv (.inr h2) (fun _ => h2))]
  simp [dataNormalized, hv, ne_sysexStart_of_req _ (.inr h2), h2, hp, secondOfTwo, hm, complete]

theorem getLsbD_seven_of_le : ∀ b : Byte, b ≤ 0x7F#8 → b.getLsbD 7 = false := by decide

theorem stepByte_of_le {b : Byte} (hb : b ≤ 0x7F#8) : stepByte s b = dataByte s (dataValue b) :=
  stepByte_data (getLsbD_seven_of_le b hb)

/-- Only a data byte delivers (40_step_and_nondata.md R71). -/
theorem le_of_stepByte_eq_some {b : Byte} {m : Message} (h : (stepByte s b).2 = some m) : b ≤ 0x7F#8 := by
  rcases stepByte_cases b with ⟨-, -, hs⟩ | ⟨hb, -, -⟩ | ⟨-, -, -, hs⟩ | ⟨-, -, hs⟩ | ⟨-, -, -, hs⟩
  case inr.inl => exact hb
  all_goals simp [hs] at h

end

/-! ### The invariant -/

/-- What the decoder holds after the status `S` and then the data bytes `ds`. -/
inductive GroupHeld (S : Byte) (ds : List Byte) (s : State) : Prop
  /-- `S` is no channel status: nothing is held, or a SysEx block is being skipped. -/
  | noRunning (hreq : req S = .unsupported) (hst : s.st_v = true → s.st = 0xF0#8) (hp : s.pd_v = false)
  /-- Each data byte is a group of its own. -/
  | oneByteGroups (hreq : req S = .one) (hv : s.st_v = true) (hst : s.st = S) (hp : s.pd_v = false)
  /-- All groups are complete. -/
  | betweenGroups (hreq : req S = .two) (hv : s.st_v = true) (hst : s.st = S) (hp : s.pd_v = false)
      (heven : ds.length % 2 = 0)
  /-- The last data byte is the first of its group, and it is buffered. -/
  | firstBuffered (hreq : req S = .two) (hv : s.st_v = true) (hst : s.st = S) (hp : s.pd_v = true)
      (hodd : ds.length % 2 = 1) (d₁ : Byte) (hlast : ds.getLast? = some d₁) (hpd : s.pd = dataValue d₁)

section
variable {S : Byte} {ds : List Byte} {s : State}

/-- EMPTY, as after reset, is what any System Common status leaves. -/
theorem groupHeld_reset : GroupHeld 0xF7#8 [] State.reset := .noRunning (by decide) (by decide) rfl

theorem groupHeld_status (hS : ¬ S ≤ 0x7F#8) (hrt : S < 0xF8#8) : GroupHeld S [] (acceptByte s S) := by
  rcases stepByte_cases S with ⟨h, -⟩ | ⟨h, -⟩ | ⟨h1, h2, -, hs⟩ | ⟨rfl, -, hs⟩ | ⟨h1, h2, -, hs⟩
  · exact absurd hrt (BitVec.not_lt.mpr h)
  · exact absurd h hS
  · rcases req_of_channelStatus S h1 h2 with h | h
    · exact .oneByteGroups h (by simp [acceptByte, hs]) (by simp [acceptByte, hs]) (by simp [acceptByte, hs])
    · exact .betweenGroups h (by simp [acceptByte, hs]) (by simp [acceptByte, hs]) (by simp [acceptByte, hs]) rfl
  · exact .noRunning (by decide) (by simp [acceptByte, hs]) (by simp [acceptByte, hs])
  · have hreq : ∀ S : Byte, 0xF1#8 ≤ S → req S = .unsupported := by decide
    exact .noRunning (hreq S h1) (by simp [acceptByte, hs]) (by simp [acceptByte, hs])

theorem GroupHeld.acceptByte (h : GroupHeld S ds s) {d : Byte} (hd : d ≤ 0x7F#8) :
    GroupHeld S (ds ++ [d]) (acceptByte s d) := by
  rw [Machine.acceptByte, stepByte_of_le hd]
  cases h with
  | noRunning hreq hst hp =>
    obtain ⟨t, ht, htst, htp⟩ := dataByte_of_noRunning hst hp (dataValue d)
    rw [ht]
    exact .noRunning hreq htst htp
  | oneByteGroups hreq hv hst hp =>
    obtain ⟨m, -, hm⟩ := dataByte_of_req_one hv (hst ▸ hreq) hp (dataValue d)
    rw [hm]
    exact .oneByteGroups hreq hv hst rfl
  | betweenGroups hreq hv hst hp heven =>
    rw [dataByte_of_req_two_first hv (hst ▸ hreq) hp]
    exact .firstBuffered hreq hv hst rfl (by simp; omega) d (by simp) rfl
  | firstBuffered hreq hv hst hp hodd =>
    obtain ⟨m, -, hm⟩ := dataByte_of_req_two_second hv (hst ▸ hreq) hp (dataValue d)
    rw [hm]
    exact .betweenGroups hreq hv hst rfl (by simp; omega)

theorem GroupHeld.runBytes (h : GroupHeld S ds s) {ds' : List Byte} (hds : ∀ d ∈ ds', d ≤ 0x7F#8) :
    GroupHeld S (ds ++ ds') (runBytes s ds').1 := by
  induction ds' generalizing ds s with
  | nil => simpa [Machine.runBytes] using h
  | cons d ds' ih =>
    obtain ⟨hd, hds⟩ := List.forall_mem_cons.mp hds
    rw [List.append_cons]
    exact ih (h.acceptByte hd) hds

/-- `b` completes the group that `ds` leaves open after the status `S`, and `m` is `synth` of both. -/
def Completes (S : Byte) (ds : List Byte) (b : Byte) (m : Message) : Prop :=
  (req S = .one ∧ synth S (b.setWidth 7) none = some m) ∨
  (req S = .two ∧ ds.length % 2 = 1 ∧
    ∃ d₁, ds.getLast? = some d₁ ∧ synth S (d₁.setWidth 7) (some (b.setWidth 7)) = some m)

theorem dataValue_eq_setWidth (b : Byte) : dataValue b = b.setWidth 7 :=
  (BitVec.setWidth_eq_extractLsb' (by decide)).symm

theorem GroupHeld.delivers_iff (h : GroupHeld S ds s) {b : Byte} (hb : b ≤ 0x7F#8) (m : Message) :
    (stepByte s b).2 = some m ↔ Completes S ds b m := by
  rw [stepByte_of_le hb, dataValue_eq_setWidth]
  cases h with
  | noRunning hreq hst hp =>
    obtain ⟨t, ht, -⟩ := dataByte_of_noRunning hst hp (b.setWidth 7)
    simp [Completes, ht, hreq]
  | oneByteGroups hreq hv hst hp =>
    obtain ⟨m', hm', hs⟩ := dataByte_of_req_one hv (hst ▸ hreq) hp (b.setWidth 7)
    rw [hst] at hm'
    simp [Completes, hs, hreq, hm']
  | betweenGroups hreq hv hst hp heven =>
    simp [Completes, dataByte_of_req_two_first hv (hst ▸ hreq) hp, hreq, heven]
  | firstBuffered hreq hv hst hp hodd d₁ hlast hpd =>
    obtain ⟨m', hm', hs⟩ := dataByte_of_req_two_second hv (hst ▸ hreq) hp (b.setWidth 7)
    rw [hst, hpd, dataValue_eq_setWidth] at hm'
    simp [Completes, hs, hreq, hodd, hlast, hm']

/-! ### Streams -/

theorem runBytes_append_state (s : State) (xs ys : List Byte) :
    (Machine.runBytes s (xs ++ ys)).1 = (Machine.runBytes (Machine.runBytes s xs).1 ys).1 := by
  induction xs generalizing s with
  | nil => rfl
  | cons x xs ih => exact ih _

theorem groupHeld_of_stream (s : State) (earlier : List Byte) (hS : ¬ S ≤ 0x7F#8) (hrt : S < 0xF8#8)
    (hds : ∀ d ∈ ds, d ≤ 0x7F#8) : GroupHeld S ds (runBytes s (earlier ++ S :: ds)).1 := by
  rw [runBytes_append_state]
  exact (groupHeld_status hS hrt).runBytes hds

/-- A stream is data bytes only, or it has a last status byte. -/
theorem allData_or_lastStatus (bs : List Byte) :
    (∀ b ∈ bs, b ≤ 0x7F#8) ∨
    ∃ (earlier : List Byte) (S : Byte) (ds : List Byte),
      bs = earlier ++ S :: ds ∧ ¬ S ≤ 0x7F#8 ∧ ∀ d ∈ ds, d ≤ 0x7F#8 := by
  induction bs with
  | nil => simp
  | cons b bs ih =>
    rcases ih with hall | ⟨earlier, S, ds, rfl, hS, hds⟩
    · by_cases hb : b ≤ 0x7F#8
      · exact .inl (List.forall_mem_cons.mpr ⟨hb, hall⟩)
      · exact .inr ⟨[], b, bs, rfl, hb, hall⟩
    · exact .inr ⟨b :: earlier, S, ds, rfl, hS, hds⟩

theorem Completes.isStatus {b : Byte} {m : Message} (h : Completes S ds b m) : ¬ S ≤ 0x7F#8 := by
  obtain ⟨hlow, -⟩ := channelStatus_of_req S (h.imp And.left And.left)
  exact fun hS => absurd (BitVec.le_trans hlow hS) (by decide)

/-- R60 on a stream without Real-Time bytes. -/
theorem delivers_iff_of_noRealTime {bs : List Byte} (hrt : ∀ x ∈ bs, x < 0xF8#8) (b : Byte) (m : Message) :
    (stepByte (runBytes State.reset bs).1 b).2 = some m ↔
      b ≤ 0x7F#8 ∧ ∃ (earlier : List Byte) (S : Byte) (ds : List Byte),
        bs = earlier ++ S :: ds ∧ (∀ d ∈ ds, d ≤ 0x7F#8) ∧ Completes S ds b m := by
  constructor
  · intro h
    have hb := le_of_stepByte_eq_some h
    refine ⟨hb, ?_⟩
    rcases allData_or_lastStatus bs with hall | ⟨earlier, S, ds, rfl, hS, hds⟩
    · have hc := ((groupHeld_reset.runBytes hall).delivers_iff hb m).mp h
      exact absurd hc (by simp [Completes, show req 0xF7#8 = .unsupported by decide])
    · have hheld := groupHeld_of_stream State.reset earlier hS (hrt S (by simp)) hds
      exact ⟨earlier, S, ds, rfl, hds, (hheld.delivers_iff hb m).mp h⟩
  · rintro ⟨hb, earlier, S, ds, rfl, hds, hc⟩
    have hheld := groupHeld_of_stream State.reset earlier hc.isStatus (hrt S (by simp)) hds
    exact (hheld.delivers_iff hb m).mpr hc

end

/-- Settles O54: the Real-Time bytes drop out of the stream (`SameDecode.runBytes_filter`); the rest of it ends with a last
status and its data bytes, and `GroupHeld` says what they leave. -/
theorem deliveredMessageIsTheLastStatusWithItsGroup : Obligations.DeliveredMessageIsTheLastStatusWithItsGroup := by
  intro bs b m
  have hregs := ((SameDecode.refl State.reset).runBytes_filter bs).2
  rw [(hregs.stepByte b).1]
  exact delivers_iff_of_noRealTime (fun x hx => by simpa using (List.mem_filter.mp hx).2) b m

end Sys2Proof.Machine
end

section
/-! The bytes that are no data bytes (40_step_and_nondata.md sections 2 and 3): each answers no message, so its edge is R71's
step with `msg_valid` taken down, and its label is the first row of R112 its value meets. -/

namespace Sys2Proof.Machine

/-! ### The label of each class of bytes -/

section
variable {s : State} {b : Byte}

theorem label_realTime (h : 0xF8#8 ≤ b) : label s (.byte b) = .absorbRt := if_pos h

theorem label_otherSystemCommon (h1 : 0xF1#8 ≤ b) (h6 : b ≤ 0xF6#8) : label s (.byte b) = .invUnsupportedStatus := by
  have key : ∀ b : Byte, b ≤ 0xF6#8 → ¬ 0xF8#8 ≤ b ∧ b ≠ 0xF7#8 := by decide
  obtain ⟨hrt, heox⟩ := key b h6
  simp only [label, hrt, heox, h1, h6, false_and, and_self, if_true, if_false]

theorem label_channelStatus (h1 : 0x80#8 ≤ b) (h2 : b ≤ 0xEF#8) :
    label s (.byte b) = if isCollect s ∨ isSysex s then .invInterrupted else .statusLoaded := by
  have key : ∀ b : Byte, b ≤ 0xEF#8 → ¬ 0xF8#8 ≤ b ∧ b ≠ 0xF7#8 ∧ ¬ 0xF1#8 ≤ b ∧ b ≤ 0xF0#8 := by decide
  obtain ⟨hrt, heox, hcommon, hF0⟩ := key b h2
  simp only [label, hrt, heox, hcommon, h1, h2, hF0, false_and, true_and, and_self, if_true, if_false]

theorem label_sysexStart : label s (.byte 0xF0#8) = if isCollect s ∨ isSysex s then .invInterrupted else .sysexStart := by
  simp [label]

theorem label_eox : label s (.byte 0xF7#8) = if isSysex s then .sysexEnd else .invLoneEox := by
  simp [label]

end

/-! ### The instructions -/

section
variable {i : Instr} {s : State}

theorem exec_of_stepByte_eq_none {t : State} (h : stepByte s (encodeByte i) = (t, none)) :
    exec i s = .next (noMessage t) := by
  rw [exec_eq_acceptByte, acceptByte, h, deliver_none]

theorem exec_of_realTime (h : 0xF8#8 ≤ encodeByte i) : exec i s = .next { s with msg_valid := false } :=
  exec_of_stepByte_eq_none (stepByte_realTime h)

/-- 0xF1 to 0xF7: EMPTY from every state (R78, R79). -/
theorem exec_of_resync (h1 : 0xF1#8 ≤ encodeByte i) (h2 : encodeByte i ≤ 0xF7#8) :
    exec i s = .next { s with st_v := false, pd_v := false, msg_valid := false } :=
  exec_of_stepByte_eq_none (stepByte_resync h1 h2)

theorem exec_of_loadStatus {b : Byte} (h : stepByte s (encodeByte i) = (loadStatus b s, none)) :
    exec i s = .next { s with st_v := true, st := b, pd_v := false, msg_valid := false } :=
  exec_of_stepByte_eq_none h

/-- A channel status written as family nibble `k` and channel nibble `c` (R76, 30_encoding.md R56). -/
theorem exec_of_channelStatus {k c : BitVec 4} (hi : encodeByte i = k ++ c) (h1 : 0x8#4 ≤ k) (h2 : k ≤ 0xE#4) :
    exec i s = .next { s with
      st_v := true, st := k ++ 0#4 ||| c.setWidth 8, pd_v := false, msg_valid := false } := by
  have key : ∀ k c : BitVec 4, 0x8#4 ≤ k → k ≤ 0xE#4 →
      0x80#8 ≤ k ++ c ∧ k ++ c ≤ 0xEF#8 ∧ k ++ c = (k ++ 0#4 ||| c.setWidth 8 : Byte) := by decide
  obtain ⟨hlow, hhigh, hor⟩ := key k c h1 h2
  rw [← hor]
  exact exec_of_loadStatus (by rw [hi, stepByte_channelStatus hlow hhigh])

end

/-- Settles O13: the families are the nibbles 0x8 to 0xE, and R112's rows above `INV_INTERRUPTED` ask for 0xF1 or more. -/
theorem channelStatusBecomesTheHeldStatus : Obligations.ChannelStatusBecomesTheHeldStatus := fun _ _ =>
  ⟨exec_of_channelStatus (k := 0x8#4) rfl (by decide) (by decide),
    exec_of_channelStatus (k := 0x9#4) rfl (by decide) (by decide),
    exec_of_channelStatus (k := 0xA#4) rfl (by decide) (by decide),
    exec_of_channelStatus (k := 0xB#4) rfl (by decide) (by decide),
    exec_of_channelStatus (k := 0xC#4) rfl (by decide) (by decide),
    exec_of_channelStatus (k := 0xD#4) rfl (by decide) (by decide),
    exec_of_channelStatus (k := 0xE#4) rfl (by decide) (by decide),
    fun _ => label_channelStatus⟩

/-- Settles O14: 0xF0 is held like any status that loads. -/
theorem sysexStartEntersTheSkipScan : Obligations.SysexStartEntersTheSkipScan := fun s =>
  ⟨exec_of_loadStatus (stepByte_sysexStart s), label_sysexStart⟩

/-- Settles O15: 0xF7 is one of the bytes that resynchronize. -/
theorem eoxEmptiesTheDecodeState : Obligations.EoxEmptiesTheDecodeState := fun _ =>
  ⟨exec_of_resync (by decide) (by decide), label_eox⟩

/-- Settles O16: 0xF1 to 0xF6 are bytes that resynchronize. -/
theorem otherSystemCommonEmptiesTheDecodeState : Obligations.OtherSystemCommonEmptiesTheDecodeState := fun _ =>
  ⟨exec_of_resync (by decide) (by decide), exec_of_resync (by decide) (by decide),
    exec_of_resync (by decide) (by decide), exec_of_resync (by decide) (by decide),
    exec_of_resync (by decide) (by decide), exec_of_resync (by decide) (by decide),
    fun _ => label_otherSystemCommon⟩

/-- Settles O17: 0xF8 to 0xFF are Real-Time bytes, whose step answers the state as it was. -/
theorem realTimeBytesAreAbsorbedInEveryMode : Obligations.RealTimeBytesAreAbsorbedInEveryMode := fun _ =>
  ⟨exec_of_realTime (by decide), exec_of_realTime (by decide), exec_of_realTime (by decide),
    exec_of_realTime (by decide), exec_of_realTime (by decide), exec_of_realTime (by decide),
    exec_of_realTime (by decide), exec_of_realTime (by decide), fun _ => label_realTime⟩

end Sys2Proof.Machine
end

section
/-! Data bytes (41_data_bytes.md): each branch of R85 with the state its edge leaves and its label. Inside `INV` the register
tests of a statement say which branch runs; what a delivery puts on the port is `portOf` of the synthesizer's answer, said
once per range of statuses. -/

namespace Sys2Proof.Machine

/-! ### Which statuses take one data byte, and which two -/

theorem req_eq_one_iff : ∀ S : Byte, req S = .one ↔ 0xC0#8 ≤ S ∧ S ≤ 0xDF#8 := by decide

theorem req_eq_two_iff : ∀ S : Byte,
    req S = .two ↔ 0x80#8 ≤ S ∧ S ≤ 0xBF#8 ∨ 0xE0#8 ≤ S ∧ S ≤ 0xEF#8 := by decide

/-! ### The port of a completed message -/

section
variable {S : Byte} {d v : Data7} {m : Message}

theorem channelOf_eq_and : ∀ S : Byte, channelOf S = (S &&& 0x0F#8).setWidth 5 + 1#5 := by decide

/-- R64's OR of the high and the low 7 bits is their concatenation, so it is a sum. -/
theorem pitchValue_eq_ofNat (d1 d2 : Data7) : pitchValue d1 d2 = BitVec.ofNat 14 (d2.toNat * 128 + d1.toNat) := by
  have happend : pitchValue d1 d2 = d2 ++ d1 := by
    rw [BitVec.append_def, BitVec.shiftLeftZeroExtend_eq, BitVec.setWidth'_eq, pitchValue]
  apply BitVec.eq_of_toNat_eq
  rw [happend, BitVec.toNat_append, ← Nat.shiftLeft_add_eq_or_of_lt d1.isLt, Nat.shiftLeft_eq, BitVec.toNat_ofNat]
  omega

/-- ProgramChange and ChannelAftertouch (R67, kinds 4 and 5). -/
theorem portOf_of_synth_oneByte (h1 : 0xC0#8 ≤ S) (h2 : S ≤ 0xDF#8) (h : synth S v none = some m) :
    portOf m = ⟨if S ≤ 0xCF#8 then 4#3 else 5#3, (S &&& 0x0F#8).setWidth 5 + 1#5, v, 0#14⟩ := by
  have key : ∀ S : Byte, 0xC0#8 ≤ S → S ≤ 0xDF#8 →
      upperNibble S = 0xC#4 ∧ S ≤ 0xCF#8 ∨ upperNibble S = 0xD#4 ∧ ¬ S ≤ 0xCF#8 := by decide
  rw [← channelOf_eq_and]
  rcases key S h1 h2 with ⟨hn, hk⟩ | ⟨hn, hk⟩ <;>
  · simp [synth, hn] at h
    simp [← h, portOf, hk]

/-- The four kinds with two 7-bit fields have their family code as kind (R67, kinds 0 to 3). -/
theorem portOf_of_synth_sevenBitFields (h1 : 0x80#8 ≤ S) (h2 : S ≤ 0xBF#8) (h : synth S d (some v) = some m) :
    portOf m = ⟨(S >>> 4).setWidth 3, (S &&& 0x0F#8).setWidth 5 + 1#5, d, v.setWidth 14⟩ := by
  have key : ∀ S : Byte, 0x80#8 ≤ S → S ≤ 0xBF#8 →
      upperNibble S = 0x8#4 ∧ (S >>> 4).setWidth 3 = 0#3 ∨ upperNibble S = 0x9#4 ∧ (S >>> 4).setWidth 3 = 1#3 ∨
      upperNibble S = 0xA#4 ∧ (S >>> 4).setWidth 3 = 2#3 ∨ upperNibble S = 0xB#4 ∧ (S >>> 4).setWidth 3 = 3#3 := by
    decide
  rw [← channelOf_eq_and]
  rcases key S h1 h2 with ⟨hn, hk⟩ | ⟨hn, hk⟩ | ⟨hn, hk⟩ | ⟨hn, hk⟩ <;>
  · simp [synth, hn] at h
    simp [← h, portOf, hk]

/-- PitchBend (R67, kind 6). -/
theorem portOf_of_synth_pitchBend (h1 : 0xE0#8 ≤ S) (h2 : S ≤ 0xEF#8) (h : synth S d (some v) = some m) :
    portOf m =
      ⟨6#3, (S &&& 0x0F#8).setWidth 5 + 1#5, 0#7, BitVec.ofNat 14 (v.toNat * 128 + d.toNat)⟩ := by
  have key : ∀ S : Byte, 0xE0#8 ≤ S → S ≤ 0xEF#8 → upperNibble S = 0xE#4 := by decide
  rw [← channelOf_eq_and, ← pitchValue_eq_ofNat]
  obtain rfl : Message.pitchBend (channelOf S) (pitchValue d v) = m := by simpa [synth, key S h1 h2] using h
  rfl

end

/-! ### The state and the label a data byte's answer gives -/

section
variable {s t : State} {v : Data7} {m : Message}

theorem exec_data (s : State) (v : Data7) : exec (.data v) s = .next (deliver (dataByte s v)) := rfl

theorem exec_of_dataByte_eq_none (h : dataByte s v = (t, none)) :
    exec (.data v) s = .next { t with msg_valid := false } := by
  rw [exec_data, h]
  rfl

/-- A delivery empties the buffer, keeps the status (R91) and writes the port. -/
theorem exec_of_dataByte_eq_some {p : PortFields} (h : dataByte s v = (clearPending s, some m)) (hp : portOf m = p) :
    exec (.data v) s = .next { s with
      pd_v := false, msg_valid := true, msg_kind := p.kind, msg_channel := p.channel, msg_p1 := p.p1, msg_p2 := p.p2 } := by
  rw [exec_data, h, ← hp]
  rfl

/-- No row of R112 above the data rows takes a byte whose bit 7 is 0. -/
theorem label_data (s : State) (v : Data7) : label s (.byte (0#1 ++ v)) = dataLabel (norm s) v := by
  have key : ∀ v : Data7, ¬ 0xF8#8 ≤ 0#1 ++ v ∧ 0#1 ++ v ≠ 0xF7#8 ∧ ¬ 0xF1#8 ≤ 0#1 ++ v ∧ ¬ 0x80#8 ≤ 0#1 ++ v ∧
      0#1 ++ v ≠ 0xF0#8 ∧ dataValue (0#1 ++ v) = v := by decide
  obtain ⟨hrt, heox, hcommon, hstatus, hsysex, hval⟩ := key v
  simp only [label, hrt, heox, hcommon, hstatus, hsysex, hval, false_and, if_false]

theorem label_data_of_inv (h : inv s = true) (v : Data7) : label s (.byte (0#1 ++ v)) = dataLabel s v := by
  rw [label_data, norm_of_inv h]

/-- A data byte that delivers has the label `DELIVERED` (R112). -/
theorem label_of_dataByte_eq_some (h : (dataByte s v).2 = some m) : label s (.byte (0#1 ++ v)) = .delivered := by
  rw [label_data]
  rw [dataByte] at h
  rcases dataNormalized_cases (inv_norm s) v with ⟨-, -, hd⟩ | ⟨-, -, -, hd⟩ | ⟨hv, hreq, -, m', hm, -⟩ |
    ⟨-, -, -, hd⟩ | ⟨hv, hreq, hp, m', hm, -⟩
  case inr.inr.inl => simp [dataLabel, synthesis, hv, ne_sysexStart_of_req _ (.inl hreq), hreq, hm]
  case inr.inr.inr.inr => simp [dataLabel, synthesis, hv, ne_sysexStart_of_req _ (.inr hreq), hreq, hp, hm]
  all_goals simp [hd] at h

/-! ### The branches of R85 inside the invariant -/

theorem dataByte_of_stray (h : inv s = true) (hv : s.st_v = false) (v : Data7) : dataByte s v = (resync s, none) := by
  simp [dataByte_of_inv h, dataNormalized, stray, hv]

theorem dataByte_of_sysex (h : inv s = true) (hv : s.st_v = true) (hst : s.st = 0xF0#8) (v : Data7) :
    dataByte s v = (s, none) := by
  simp [dataByte_of_inv h, dataNormalized, sysexPayload, hv, hst]

/-- Inside `INV` only a two-data-byte status has a buffered byte (10_state.md R21). -/
theorem pd_v_eq_false_of_req_one (h : inv s = true) (h1 : req s.st = .one) : s.pd_v = false := by
  obtain ⟨-, hpd⟩ := (inv_iff s).mp h
  by_contra hp
  obtain ⟨-, h2⟩ := hpd (by simpa using hp)
  simp [h1] at h2

end

/-- Settles O18: the branch `stray` of R85. -/
theorem strayDataByteIsDiscarded : Obligations.StrayDataByteIsDiscarded := fun s v hinv hv =>
  ⟨exec_of_dataByte_eq_none (dataByte_of_stray hinv hv v), by simp [label_data_of_inv hinv, dataLabel, hv]⟩

/-- Settles O19: the branch `sysex_payload` of R85. -/
theorem sysexPayloadByteIsDiscarded : Obligations.SysexPayloadByteIsDiscarded := fun s v hinv hv hst =>
  ⟨exec_of_dataByte_eq_none (dataByte_of_sysex hinv hv hst v), by simp [label_data_of_inv hinv, dataLabel, hv, hst]⟩

/-- Settles O20: the branch `one_byte` of R85, which always has its message. -/
theorem oneDataByteMessageIsDelivered : Obligations.OneDataByteMessageIsDelivered := by
  intro s v hinv hv hlow hhigh
  have h1 : req s.st = .one := (req_eq_one_iff s.st).mpr ⟨hlow, hhigh⟩
  obtain ⟨m, hm, hdata⟩ := dataByte_of_req_one hv h1 (pd_v_eq_false_of_req_one hinv h1) v
  exact ⟨exec_of_dataByte_eq_some hdata (portOf_of_synth_oneByte hlow hhigh hm),
    label_of_dataByte_eq_some (congrArg Prod.snd hdata)⟩

/-- Settles O21: the branch `first_of_two` of R85; a held two-data-byte status is inside `INV` already. -/
theorem firstOfTwoDataBytesIsBuffered : Obligations.FirstOfTwoDataBytesIsBuffered := by
  intro s v hv hp hrange
  have h2 : req s.st = .two := (req_eq_two_iff s.st).mpr hrange
  have hinv : inv s = true := inv_of_running hv (.inr h2) (fun _ => h2)
  refine ⟨exec_of_dataByte_eq_none (dataByte_of_req_two_first hv h2 hp v), ?_⟩
  simp [label_data_of_inv hinv, dataLabel, synthesis, hv, ne_sysexStart_of_req _ (.inr h2), h2, hp]

/-- Settles O22: the branch `second_of_two` of R85, which always has its message; the two ranges differ in its port only. -/
theorem secondOfTwoDataBytesDelivers : Obligations.SecondOfTwoDataBytesDelivers := by
  intro s v hv hp
  constructor
  · intro hlow hhigh
    obtain ⟨m, hm, hdata⟩ := dataByte_of_req_two_second hv ((req_eq_two_iff s.st).mpr (.inl ⟨hlow, hhigh⟩)) hp v
    exact ⟨exec_of_dataByte_eq_some hdata (portOf_of_synth_sevenBitFields hlow hhigh hm),
      label_of_dataByte_eq_some (congrArg Prod.snd hdata)⟩
  · intro hlow hhigh
    obtain ⟨m, hm, hdata⟩ := dataByte_of_req_two_second hv ((req_eq_two_iff s.st).mpr (.inr ⟨hlow, hhigh⟩)) hp v
    exact ⟨exec_of_dataByte_eq_some hdata (portOf_of_synth_pitchBend hlow hhigh hm),
      label_of_dataByte_eq_some (congrArg Prod.snd hdata)⟩

end Sys2Proof.Machine
end

section
/-! The classification helpers and the synthesizer (42_synthesizer.md): the counts of R94 by range, one equation of `synth`
per family (R99–R105) and one per failure (R98), and what a delivering byte leaves held (R95 with R91). -/

namespace Sys2Proof.Machine

/-! ### The helpers -/

theorem req_eq_unsupported_iff : ∀ S : Byte, req S = .unsupported ↔ S ≤ 0x7F#8 ∨ 0xF0#8 ≤ S := by decide

theorem req_ne_zero : ∀ S : Byte, req S ≠ .zero := by decide

theorem supportsRunningStatus_iff (S : Byte) : supportsRunningStatus S = true ↔ 0x80#8 ≤ S ∧ S ≤ 0xEF#8 := by
  simp [supportsRunningStatus]

/-- Settles O25: each of the three counts has its range of values. -/
theorem requiredDataBytesByFamily : Obligations.RequiredDataBytesByFamily := fun S =>
  ⟨req_eq_two_iff S, req_eq_one_iff S, req_eq_unsupported_iff S, req_ne_zero S⟩

/-! ### The synthesizer, family by family -/

section
variable {S : Byte} {ch : BitVec 5} {d1 v : Data7} {d2 : Option Data7}

theorem synth_noteOff (hn : upperNibble S = 0x8#4) (hc : channelOf S = ch) :
    synth S d1 (some v) = some (.noteOff ch d1 v) := by
  simp [synth, hn, hc]

theorem synth_noteOn (hn : upperNibble S = 0x9#4) (hc : channelOf S = ch) :
    synth S d1 (some v) = some (.noteOn ch d1 v) := by
  simp [synth, hn, hc]

theorem synth_noteAftertouch (hn : upperNibble S = 0xA#4) (hc : channelOf S = ch) :
    synth S d1 (some v) = some (.noteAftertouch ch d1 v) := by
  simp [synth, hn, hc]

theorem synth_controlChange (hn : upperNibble S = 0xB#4) (hc : channelOf S = ch) :
    synth S d1 (some v) = some (.controlChange ch d1 v) := by
  simp [synth, hn, hc]

theorem synth_programChange (hn : upperNibble S = 0xC#4) (hc : channelOf S = ch) :
    synth S d1 d2 = some (.programChange ch d1) := by
  simp [synth, hn, hc]

theorem synth_channelAftertouch (hn : upperNibble S = 0xD#4) (hc : channelOf S = ch) :
    synth S d1 d2 = some (.channelAftertouch ch d1) := by
  simp [synth, hn, hc]

theorem synth_pitchBend (hn : upperNibble S = 0xE#4) (hc : channelOf S = ch) :
    synth S d1 (some v) = some (.pitchBend ch (BitVec.ofNat 14 (v.toNat * 128 + d1.toNat))) := by
  simp [synth, hn, hc, pitchValue_eq_ofNat]

/-- Only the one-data-byte families answer without a second byte (R98). -/
theorem synth_none_of_req_two (h : req S = .two) : synth S d1 none = none := by
  have key : ∀ S : Byte, req S = .two → upperNibble S ≠ 0xC#4 ∧ upperNibble S ≠ 0xD#4 := by decide
  obtain ⟨hC, hD⟩ := key S h
  simp [synth, hC, hD]

/-- A status of no family has no message (R98). -/
theorem synth_of_req_unsupported (h : req S = .unsupported) : synth S d1 d2 = none := by
  have key : ∀ S : Byte, req S = .unsupported →
      ∀ k ∈ [0x8#4, 0x9#4, 0xA#4, 0xB#4, 0xC#4, 0xD#4, 0xE#4], upperNibble S ≠ k := by decide
  have hfamily := key S h
  simp only [List.forall_mem_cons] at hfamily
  obtain ⟨h8, h9, hA, hB, hC, hD, hE, -⟩ := hfamily
  simp [synth, h8, h9, hA, hB, hC, hD, hE]

end

/-- The two nibbles of a status byte written as family and channel (30_encoding.md R56, R63). -/
theorem upperNibble_or : ∀ k c : BitVec 4, upperNibble (k ++ 0#4 ||| c.setWidth 8 : Byte) = k := by decide

theorem channelOf_or :
    ∀ k c : BitVec 4, channelOf (k ++ 0#4 ||| c.setWidth 8 : Byte) = c.setWidth 5 + 1#5 := by decide

/-- Settles O27: the equations of the seven families on `k ++ 0 ||| c`, whose nibbles are `k` and `c`, and the two
failures. -/
theorem synthesizerBuildsEachKind : Obligations.SynthesizerBuildsEachKind := fun c _ _ _ =>
  ⟨synth_noteOff (upperNibble_or 0x8#4 c) (channelOf_or 0x8#4 c),
    synth_noteOn (upperNibble_or 0x9#4 c) (channelOf_or 0x9#4 c),
    synth_noteAftertouch (upperNibble_or 0xA#4 c) (channelOf_or 0xA#4 c),
    synth_controlChange (upperNibble_or 0xB#4 c) (channelOf_or 0xB#4 c),
    synth_programChange (upperNibble_or 0xC#4 c) (channelOf_or 0xC#4 c),
    synth_channelAftertouch (upperNibble_or 0xD#4 c) (channelOf_or 0xD#4 c),
    synth_pitchBend (upperNibble_or 0xE#4 c) (channelOf_or 0xE#4 c),
    fun S hS => synth_none_of_req_two ((req_eq_two_iff S).mpr hS),
    fun S hS => synth_of_req_unsupported ((req_eq_unsupported_iff S).mpr hS)⟩

/-! ### What a byte leaves held -/

section
variable {s : State} {b : Byte} {v : Data7} {m : Message}

/-- A data byte delivers only under a channel status, which it keeps with the buffer empty (R91). -/
theorem dataByte_of_eq_some (h : (dataByte s v).2 = some m) :
    s.st_v = true ∧ (0x80#8 ≤ s.st ∧ s.st ≤ 0xEF#8) ∧ dataByte s v = (clearPending s, some m) := by
  cases hinv : inv s
  · simp [dataByte_of_not_inv hinv] at h
  · rw [dataByte_of_inv hinv] at h ⊢
    rcases dataNormalized_cases hinv v with ⟨-, -, hd⟩ | ⟨-, -, -, hd⟩ | ⟨hv, hreq, -, m', -, hd⟩ | ⟨-, -, -, hd⟩ |
      ⟨hv, hreq, -, m', -, hd⟩ <;> rw [hd] at h ⊢
    case inr.inr.inl => exact ⟨hv, channelStatus_of_req _ (.inl hreq), congrArg _ h⟩
    case inr.inr.inr.inr => exact ⟨hv, channelStatus_of_req _ (.inr hreq), congrArg _ h⟩
    all_goals simp at h

theorem stepByte_of_eq_some (h : (stepByte s b).2 = some m) :
    s.st_v = true ∧ (0x80#8 ≤ s.st ∧ s.st ≤ 0xEF#8) ∧ stepByte s b = (clearPending s, some m) := by
  have hb := le_of_stepByte_eq_some h
  rw [stepByte_of_le hb] at h ⊢
  exact dataByte_of_eq_some h

/-- A System Common byte leaves no status held, or 0xF0 (R77–R80). -/
theorem acceptByte_systemCommon (h0 : 0xF0#8 ≤ b) (h7 : b ≤ 0xF7#8) (hv : (acceptByte s b).st_v = true) :
    (acceptByte s b).st = 0xF0#8 := by
  have key : ∀ b : Byte, 0xF0#8 ≤ b → b = 0xF0#8 ∨ 0xF1#8 ≤ b := by decide
  rcases key b h0 with rfl | h1
  · rfl
  · simp [acceptByte, stepByte_resync h1 h7] at hv

end

/-- Settles O26: a delivery comes from `clearPending` under a channel status, and a System Common byte can leave 0xF0 held
only. -/
theorem onlyChannelStatusesRun : Obligations.OnlyChannelStatusesRun := by
  intro s b
  refine ⟨supportsRunningStatus_iff b, fun hdelivers => ?_, fun h0 h7 hv => ?_⟩
  · obtain ⟨m, hm⟩ := Option.isSome_iff_exists.mp hdelivers
    obtain ⟨hv, hchan, hs⟩ := stepByte_of_eq_some hm
    rw [acceptByte, hs]
    exact ⟨hv, (supportsRunningStatus_iff s.st).mpr hchan, rfl, rfl⟩
  · rw [acceptByte_systemCommon h0 h7 hv]
    rfl

end Sys2Proof.Machine
end

section
/-! No byte faults in any state, and none touches what the host drives (60_exceptions.md R109): every step has a next state,
and every operation of R71 keeps the pins and the count of draws. -/

namespace Sys2Proof.Machine

theorem dataByte_keeps_inputs (s : State) (v : Data7) :
    (dataByte s v).1.pins = s.pins ∧ (dataByte s v).1.unstable_draws = s.unstable_draws := by
  cases hinv : inv s
  · rw [dataByte_of_not_inv hinv]
    exact ⟨rfl, rfl⟩
  · rw [dataByte_of_inv hinv]
    rcases dataNormalized_cases hinv v with ⟨-, -, hd⟩ | ⟨-, -, -, hd⟩ | ⟨-, -, -, m, -, hd⟩ | ⟨-, -, -, hd⟩ |
      ⟨-, -, -, m, -, hd⟩ <;>
    · rw [hd]
      exact ⟨rfl, rfl⟩

theorem stepByte_keeps_inputs (s : State) (b : Byte) :
    (stepByte s b).1.pins = s.pins ∧ (stepByte s b).1.unstable_draws = s.unstable_draws := by
  rcases stepByte_cases b with ⟨-, -, hs⟩ | ⟨-, -, hs⟩ | ⟨-, -, -, hs⟩ | ⟨-, -, hs⟩ | ⟨-, -, -, hs⟩ <;> rw [hs]
  case inr.inl => exact dataByte_keeps_inputs s (dataValue b)
  all_goals exact ⟨rfl, rfl⟩

theorem acceptByte_keeps_inputs (s : State) (b : Byte) :
    (acceptByte s b).pins = s.pins ∧ (acceptByte s b).unstable_draws = s.unstable_draws := by
  rw [acceptByte, deliver_pins, deliver_unstable_draws]
  exact stepByte_keeps_inputs s b

/-- Settles O24: the next state is the one after the edge that accepts the instruction's byte. -/
theorem everyInstructionAnswersANextState : Obligations.EveryInstructionAnswersANextState := fun i s =>
  ⟨acceptByte s (encodeByte i), exec_eq_acceptByte i s, acceptByte_keeps_inputs s (encodeByte i)⟩

end Sys2Proof.Machine
end

section
/-! The reset edge of 70_reset_and_hazards.md: with `rst = 1` the edge runs `resetRegisters` on what is left of the pins,
whatever the registers hold (R125) and whatever byte is presented (R127). -/

namespace Sys2Proof.Machine

theorem step_of_rst {s : State} {p : Pins} {rest : List Pins} (h : s.pins = p :: rest) (hr : p.rst = true) :
    step s = .next (resetRegisters { s with pins := rest }) :=
  step_of_reset (nextEdge_reset h hr)

/-- Settles O2: the first edge answers `resetRegisters`, and the second one runs it again on registers already reset. -/
theorem resetEdgeRestoresEveryRegister : Obligations.ResetEdgeRestoresEveryRegister := fun _ _ _ hp hr =>
  ⟨_, step_of_rst hp hr, rfl, fun _ _ hq hqr => step_of_rst hq hqr⟩

/-- Settles O3: presenting another byte changes neither `rst` nor the rest of the pins, and the reset edge reads no more
of the pins than these. -/
theorem noByteIsAcceptedAtAResetEdge : Obligations.NoByteIsAcceptedAtAResetEdge := by
  intro s t p v x rest hr hp ht
  have hother : step { s with pins := { p with in_valid := v, in_byte := x } :: rest } =
      .next (resetRegisters { s with pins := rest }) := step_of_rst rfl hr
  exact ⟨rfl, hother.trans ((step_of_rst hp hr).symm.trans ht)⟩

end Sys2Proof.Machine
end

section
/-! Encoding (30_encoding.md): the decoder and the encoder invert each other, byte by byte and so along a stream. -/

namespace Sys2Proof

@[simp] theorem decodeByte_encodeByte (i : Instr) : decodeByte (encodeByte i) = i := by
  cases i
  case data v => revert v; decide
  case noteOff c => revert c; decide
  case noteOn c => revert c; decide
  case noteAftertouch c => revert c; decide
  case controlChange c => revert c; decide
  case programChange c => revert c; decide
  case channelAftertouch c => revert c; decide
  case pitchBend c => revert c; decide
  all_goals rfl

/-- The decoder takes one byte, that of the instruction it answers. -/
theorem eq_encode_append_of_decode {bs rest : List Byte} {i : Instr} (h : decode bs = .ok i rest) :
    bs = encode i ++ rest := by
  cases bs with
  | nil => simp [decode] at h
  | cons b bs =>
    obtain ⟨rfl, rfl⟩ : decodeByte b = i ∧ bs = rest := by simpa [decode] using h
    simp [encode]

theorem eq_nil_of_decode_rejected {bs : List Byte} {why : DecodeReject} (h : decode bs = .rejected why) : bs = [] := by
  cases bs with
  | nil => rfl
  | cons b bs => simp [decode] at h

/-- Settles O34: both directions are the byte's, since an instruction is one byte and the rest of the stream is passed on. -/
theorem decodeAndEncodeAgree : Obligations.DecodeAndEncodeAgree :=
  ⟨fun i rest => by simp [encode, decode], fun _ _ _ => eq_encode_append_of_decode, fun _ _ => eq_nil_of_decode_rejected⟩

/-- Settles O35: on each of the 256 bytes the 24 rows are tried. -/
theorem opcodeTablePartitionsTheBytes : Obligations.OpcodeTablePartitionsTheBytes := by
  unfold Obligations.OpcodeTablePartitionsTheBytes
  decide

/-- Settles O37: the decoder evaluated on each written-out byte. -/
theorem writtenOutWordsDecode : Obligations.WrittenOutWordsDecode :=
  ⟨rfl, rfl, rfl, rfl, rfl, rfl, rfl, rfl, rfl, rfl, rfl, rfl, rfl⟩

end Sys2Proof
end

section
/-! What every step keeps (10_state.md R18 to R21, 42_synthesizer.md R107): the decode invariant and the port's range. Both
are kept by each operation of R71 and by the port write, so by every edge (`step_cases`), so along every run. -/

namespace Sys2Proof.Machine

/-! ### The edges -/

/-- Everything an edge can do: reset with `rst = 1`, or an idle cycle or an accepted byte on the registers as they are
(20_memory.md R34). -/
theorem step_cases (s : State) :
    (∃ (p : Pins) (rest : List Pins), s.pins = p :: rest ∧ p.rst = true ∧
      step s = .next (resetRegisters { s with pins := rest })) ∨
    ∃ (pins : List Pins) (n : Nat),
      step s = .next (idleEdge { s with pins := pins, unstable_draws := n }) ∨
      ∃ b, step s = .next (acceptByte { s with pins := pins, unstable_draws := n } b) := by
  cases hs : s.pins with
  | nil => exact .inr ⟨s.pins, s.unstable_draws, .inl (step_of_idle (nextEdge_nil hs))⟩
  | cons p rest =>
    cases hr : p.rst with
    | true => exact .inl ⟨p, rest, rfl, hr, step_of_rst hs hr⟩
    | false =>
      cases hv : p.in_valid with
      | false => exact .inr ⟨rest, s.unstable_draws, .inl (step_of_idle (nextEdge_idle hs hr hv))⟩
      | true =>
        cases hb : p.in_byte with
        | stable b => exact .inr ⟨rest, s.unstable_draws, .inr ⟨b, step_of_stable hs hr hv hb⟩⟩
        | unstable =>
          exact .inr ⟨rest, s.unstable_draws + 1, .inr
            ⟨_, (step_of_accept (nextEdge_unstable hs hr hv hb)).trans (exec_decodeByte _ _)⟩⟩

/-! ### The decode invariant -/

section
variable {s : State}

theorem inv_resync (s : State) : inv (resync s) = true := by simp [inv_iff]

theorem inv_loadStatus {b : Byte} (hb : (0x80#8 ≤ b ∧ b ≤ 0xEF#8) ∨ b = 0xF0#8) (s : State) :
    inv (loadStatus b s) = true :=
  (inv_iff _).mpr ⟨fun _ => hb, by simp⟩

theorem inv_clearPending (h : inv s = true) : inv (clearPending s) = true :=
  (inv_iff _).mpr ⟨((inv_iff s).mp h).1, by simp⟩

theorem inv_bufferFirst (hv : s.st_v = true) (h2 : req s.st = .two) (v : Data7) : inv (bufferFirst v s) = true :=
  inv_of_running hv (.inr h2) (fun _ => h2)

/-- A data byte normalizes first, so it leads into the invariant from every state. -/
theorem inv_dataByte (s : State) (v : Data7) : inv (dataByte s v).1 = true := by
  have hn := inv_norm s
  rw [dataByte]
  rcases dataNormalized_cases hn v with ⟨-, -, hd⟩ | ⟨-, -, -, hd⟩ | ⟨-, -, -, m, -, hd⟩ | ⟨hv, h2, -, hd⟩ |
    ⟨-, -, -, m, -, hd⟩ <;> rw [hd]
  · exact inv_resync _
  · exact hn
  · exact inv_clearPending hn
  · exact inv_bufferFirst hv h2 v
  · exact inv_clearPending hn

theorem inv_stepByte (h : inv s = true) (b : Byte) : inv (stepByte s b).1 = true := by
  rcases stepByte_cases b with ⟨-, -, hs⟩ | ⟨-, -, hs⟩ | ⟨h1, h2, -, hs⟩ | ⟨-, -, hs⟩ | ⟨-, -, -, hs⟩ <;> rw [hs]
  · exact h
  · exact inv_dataByte s _
  · exact inv_loadStatus (.inl ⟨h1, h2⟩) s
  · exact inv_loadStatus (.inr rfl) s
  · exact inv_resync s

@[simp] theorem inv_deliver (r : State × Option Message) : inv (deliver r) = inv r.1 := by
  simp only [inv, deliver_st_v, deliver_st, deliver_pd_v]

theorem inv_step {t : State} (h : inv s = true) (ht : step s = .next t) : inv t = true := by
  rcases step_cases s with ⟨p, rest, -, -, hs⟩ | ⟨pins, n, hs | ⟨b, hs⟩⟩ <;>
    obtain rfl := Host.Outcome.next.inj (hs.symm.trans ht)
  · rfl
  · exact h
  · rw [acceptByte, inv_deliver]
    refine inv_stepByte ?_ b
    exact h

end

/-- Settles O39: the invariant written out is `inv`, and each status it allows has bit 7 set. -/
theorem stepKeepsTheDecodeInvariant : Obligations.StepKeepsTheDecodeInvariant := by
  intro s t hst hpd ht
  obtain ⟨htst, htpd⟩ := (inv_iff t).mp (inv_step ((inv_iff s).mpr ⟨hst, hpd⟩) ht)
  have hbit : ∀ b : Byte, (0x80#8 ≤ b ∧ b ≤ 0xEF#8) ∨ b = 0xF0#8 → b.getLsbD 7 = true := by decide
  exact ⟨fun hv => ⟨htst hv, hbit _ (htst hv)⟩, htpd⟩

/-! ### The port -/

section
variable {s t : State} {b : Byte} {m : Message}

theorem port_dataByte (s : State) (v : Data7) : (dataByte s v).1.port = s.port := by
  cases hinv : inv s
  · rw [dataByte_of_not_inv hinv]
    rfl
  · rw [dataByte_of_inv hinv]
    rcases dataNormalized_cases hinv v with ⟨-, -, hd⟩ | ⟨-, -, -, hd⟩ | ⟨-, -, -, m, -, hd⟩ | ⟨-, -, -, hd⟩ |
      ⟨-, -, -, m, -, hd⟩ <;> simp [hd, State.port]

/-- R71's step leaves the port to the edge's port write. -/
theorem port_stepByte (s : State) (b : Byte) : (stepByte s b).1.port = s.port := by
  rcases stepByte_cases b with ⟨-, -, hs⟩ | ⟨-, -, hs⟩ | ⟨-, -, -, hs⟩ | ⟨-, -, hs⟩ | ⟨-, -, -, hs⟩ <;> rw [hs]
  case inr.inl => exact port_dataByte s _
  all_goals rfl

theorem portMessage_deliver (r : State × Option Message) : (deliver r).portMessage = r.2 := by
  obtain ⟨s, _ | m⟩ := r
  · rfl
  · exact messageOf_portOf m

@[simp] theorem portMessage_acceptByte (s : State) (b : Byte) : (acceptByte s b).portMessage = (stepByte s b).2 :=
  portMessage_deliver _

/-- A consumer reads a message only while `msg_valid = 1` (20_memory.md R40). -/
theorem msg_valid_acceptByte (s : State) (b : Byte) : (acceptByte s b).msg_valid = (stepByte s b).2.isSome :=
  deliver_msg_valid _

/-- A channel is 1 to 16 whatever the status (30_encoding.md R63). -/
theorem channelOf_toNat : ∀ S : Byte, (channelOf S).toNat = S.toNat % 16 + 1 := by decide

theorem synth_wellFormed {S : Byte} {d : Data7} {v : Option Data7} (h : synth S d v = some m) : m.wellFormed = true := by
  rw [Message.wellFormed_iff, synth_channel h, channelOf_toNat]
  omega

/-- Only the synthesizer makes messages (41_data_bytes.md R88, R90). -/
theorem dataByte_wellFormed {v : Data7} (h : (dataByte s v).2 = some m) : m.wellFormed = true := by
  rw [dataByte] at h
  rcases dataNormalized_cases (inv_norm s) v with ⟨-, -, hd⟩ | ⟨-, -, -, hd⟩ | ⟨-, -, -, m', hm, hd⟩ | ⟨-, -, -, hd⟩ |
    ⟨-, -, -, m', hm, hd⟩ <;> rw [hd] at h
  case inr.inr.inl => exact synth_wellFormed (hm.trans h)
  case inr.inr.inr.inr => exact synth_wellFormed (hm.trans h)
  all_goals simp at h

theorem stepByte_wellFormed (h : (stepByte s b).2 = some m) : m.wellFormed = true := by
  rw [stepByte_of_le (le_of_stepByte_eq_some h)] at h
  exact dataByte_wellFormed h

theorem portInv_of_port_eq (hp : t.port = s.port) (hv : t.msg_valid = false) (h : portInv s = true) :
    portInv t = true := by
  simp only [portInv, hp, hv, Bool.or_eq_true, Bool.and_eq_true] at h ⊢
  exact h.imp id fun ⟨_, hreset⟩ => ⟨rfl, hreset⟩

theorem portInv_emit (h : m.wellFormed = true) (s : State) : portInv (emit m s) = true := by
  have hport : (emit m s).port = portOf m := rfl
  simp [portInv, hport, h]

theorem portInv_acceptByte (h : portInv s = true) (b : Byte) : portInv (acceptByte s b) = true := by
  cases hm : (stepByte s b).2 with
  | none =>
    rw [acceptByte_of_none hm]
    exact portInv_of_port_eq (port_stepByte s b) rfl h
  | some m =>
    rw [acceptByte_of_some hm]
    exact portInv_emit (stepByte_wellFormed hm) _

theorem portInv_step (h : portInv s = true) (ht : step s = .next t) : portInv t = true := by
  rcases step_cases s with ⟨p, rest, -, -, hs⟩ | ⟨pins, n, hs | ⟨b, hs⟩⟩ <;>
    obtain rfl := Host.Outcome.next.inj (hs.symm.trans ht)
  · rfl
  · refine portInv_of_port_eq ?_ rfl h
    rfl
  · refine portInv_acceptByte ?_ b
    exact h

end

/-- Settles O40: each kind of edge keeps the port in range. -/
theorem stepKeepsThePortInRange : Obligations.StepKeepsThePortInRange := fun _ _ => portInv_step

/-- Settles O31: the port write is read back by `messageOf`. -/
theorem portShowsExactlyTheDeliveredMessage : Obligations.PortShowsExactlyTheDeliveredMessage := portMessage_acceptByte

/-- Settles O32: an edge that is no reset writes the fields only with a message, when `msg_valid` rises. -/
theorem messageFieldsHoldWithoutADelivery : Obligations.MessageFieldsHoldWithoutADelivery := by
  intro s t hrst ht hvalid
  have hport : t.port = s.port := by
    rcases step_cases s with ⟨p, rest, hp, hr, -⟩ | ⟨pins, n, hs | ⟨b, hs⟩⟩
    · simp [hrst p rest hp] at hr
    · obtain rfl := Host.Outcome.next.inj (hs.symm.trans ht)
      rfl
    · obtain rfl := Host.Outcome.next.inj (hs.symm.trans ht)
      rw [msg_valid_acceptByte, Option.isSome_eq_false_iff, Option.isNone_iff_eq_none] at hvalid
      rw [acceptByte_of_none hvalid]
      exact port_stepByte _ b
  simpa [State.port] using hport

/-! ### Safe runs -/

theorem safe_step {s t : State} (h : safe s = true) (ht : step s = .next t) : safe t = true := by
  obtain ⟨hinv, hport⟩ := Bool.and_eq_true_iff.mp h
  exact Bool.and_eq_true_iff.mpr ⟨inv_step hinv ht, portInv_step hport ht⟩

/-- Settles O41: by induction on the number of edges, since every edge has a next state and it is safe. -/
theorem safeStatesRunSafelyForever : Obligations.SafeStatesRunSafelyForever := by
  intro k
  induction k with
  | zero => exact fun _ h => h
  | succ k ih =>
    intro s h
    have hnext := step_eq_next s
    rw [safeRun, h, hnext]
    exact ih _ (safe_step h hnext)

/-- Settles O38: the registers of R28 are EMPTY with the reset port. -/
theorem resetStateIsSafe : Obligations.ResetStateIsSafe := ⟨rfl, rfl⟩

end Sys2Proof.Machine
end

section
/-! The four modes (10_state.md R22) and their next-state table (40_step_and_nondata.md R81). A mode is the live part of the
registers, `modeOf_eq_some_iff`; one byte on the registers is one step of the table, `modeOf_acceptByte`; so a run of the
registers is a run of the table, and what a stream delivers is read off the table. -/

namespace Sys2Proof.Machine

/-! ### A mode is what the registers hold -/

/-- The status a mode holds (R22). -/
def Mode.status : Mode → Option Byte
  | .idle => none
  | .running S => some S
  | .collect S _ => some S
  | .sysex => some 0xF0#8

/-- The data byte a mode has buffered (R22). -/
def Mode.pending : Mode → Option Data7
  | .idle => none
  | .running _ => none
  | .collect _ d => some d
  | .sysex => none

/-- The statuses R22 allows in a mode. -/
def Mode.Valid : Mode → Prop
  | .idle => True
  | .running S => 0x80#8 ≤ S ∧ S ≤ 0xEF#8
  | .collect S _ => req S = .two
  | .sysex => True

section
variable {s t : State} {m : Mode} {b : Byte} {v : Data7}

@[simp] theorem status_eq_none_iff : s.status = none ↔ s.st_v = false := by simp [State.status]

@[simp] theorem status_eq_some_iff : s.status = some b ↔ s.st_v = true ∧ s.st = b := by simp [State.status]

@[simp] theorem pending_eq_none_iff : s.pending = none ↔ s.pd_v = false := by simp [State.pending]

@[simp] theorem pending_eq_some_iff : s.pending = some v ↔ s.pd_v = true ∧ s.pd = v := by simp [State.pending]

theorem modeOf_of_idle (hv : s.st_v = false) (hp : s.pd_v = false) : modeOf s = some .idle := by
  have hinv : inv s = true := (inv_iff s).mpr ⟨by simp [hv], by simp [hp]⟩
  simp [modeOf, hinv, hv]

theorem modeOf_of_sysex (hv : s.st_v = true) (hst : s.st = 0xF0#8) (hp : s.pd_v = false) :
    modeOf s = some .sysex := by
  have hinv : inv s = true := (inv_iff s).mpr ⟨fun _ => .inr hst, by simp [hp]⟩
  simp [modeOf, hinv, hv, hst]

theorem modeOf_of_running (hv : s.st_v = true) (hreq : req s.st = .one ∨ req s.st = .two) (hp : s.pd_v = false) :
    modeOf s = some (.running s.st) := by
  have hinv : inv s = true := inv_of_running hv hreq (by simp [hp])
  simp [modeOf, hinv, hv, hp, ne_sysexStart_of_req _ hreq]

theorem modeOf_of_collect (hv : s.st_v = true) (h2 : req s.st = .two) (hp : s.pd_v = true) :
    modeOf s = some (.collect s.st s.pd) := by
  have hinv : inv s = true := inv_of_running hv (.inr h2) (fun _ => h2)
  simp [modeOf, hinv, hv, hp, ne_sysexStart_of_req _ (.inr h2)]

theorem modeOf_isSome (s : State) : (modeOf s).isSome = inv s := by
  unfold modeOf
  split_ifs <;> simp_all

theorem inv_of_modeOf (h : modeOf s = some m) : inv s = true := by
  rw [← modeOf_isSome, h, Option.isSome_some]

/-- The registers of a mode, row by row of R22: its status, its buffered byte and nothing else. -/
theorem modeOf_eq_some_iff : modeOf s = some m ↔ m.Valid ∧ s.status = m.status ∧ s.pending = m.pending := by
  constructor
  · intro h
    obtain ⟨hst, hpd⟩ := (inv_iff s).mp (inv_of_modeOf h)
    cases hv : s.st_v
    · have hp : s.pd_v = false := by
        by_contra hp
        simp [hv] at hpd
        exact hp hpd
      obtain rfl : Mode.idle = m := Option.some.inj ((modeOf_of_idle hv hp).symm.trans h)
      exact ⟨trivial, status_eq_none_iff.mpr hv, pending_eq_none_iff.mpr hp⟩
    · cases hp : s.pd_v
      · rcases hst hv with hchan | hF
        · obtain rfl : Mode.running s.st = m :=
            Option.some.inj ((modeOf_of_running hv (req_of_channelStatus _ hchan.1 hchan.2) hp).symm.trans h)
          exact ⟨hchan, status_eq_some_iff.mpr ⟨hv, rfl⟩, pending_eq_none_iff.mpr hp⟩
        · obtain rfl : Mode.sysex = m := Option.some.inj ((modeOf_of_sysex hv hF hp).symm.trans h)
          exact ⟨trivial, status_eq_some_iff.mpr ⟨hv, hF⟩, pending_eq_none_iff.mpr hp⟩
      · obtain ⟨-, h2⟩ := hpd hp
        obtain rfl : Mode.collect s.st s.pd = m := Option.some.inj ((modeOf_of_collect hv h2 hp).symm.trans h)
        exact ⟨h2, status_eq_some_iff.mpr ⟨hv, rfl⟩, pending_eq_some_iff.mpr ⟨hp, rfl⟩⟩
  · rintro ⟨hvalid, hstatus, hpending⟩
    cases m with
    | idle => exact modeOf_of_idle (status_eq_none_iff.mp hstatus) (pending_eq_none_iff.mp hpending)
    | running S =>
      obtain ⟨hv, rfl⟩ := status_eq_some_iff.mp hstatus
      exact modeOf_of_running hv (req_of_channelStatus _ hvalid.1 hvalid.2) (pending_eq_none_iff.mp hpending)
    | collect S d =>
      obtain ⟨hv, rfl⟩ := status_eq_some_iff.mp hstatus
      obtain ⟨hp, rfl⟩ := pending_eq_some_iff.mp hpending
      exact modeOf_of_collect hv hvalid hp
    | sysex =>
      obtain ⟨hv, hst⟩ := status_eq_some_iff.mp hstatus
      exact modeOf_of_sysex hv hst (pending_eq_none_iff.mp hpending)

theorem isEmpty_iff_modeOf_eq_idle : isEmpty s = true ↔ modeOf s = some .idle := by
  rw [modeOf_eq_some_iff]
  simp [isEmpty, Mode.Valid, Mode.status, Mode.pending]

end

/-- Settles O42: each row of the table is `modeOf_eq_some_iff` at its mode. -/
theorem modesAreTheReachableRegisterStates : Obligations.ModesAreTheReachableRegisterStates := by
  intro s
  simp only [modeOf_eq_some_iff, Mode.Valid, Mode.status, Mode.pending, status_eq_none_iff, status_eq_some_iff,
    pending_eq_none_iff, pending_eq_some_iff]
  exact ⟨modeOf_isSome s, by tauto, fun a => by tauto, fun a d => by tauto, by tauto⟩

/-! ### One byte -/

section
variable {s t : State} {m : Mode} {b : Byte} {v : Data7}

theorem SameDecode.modeOf (h : SameDecode s t) : modeOf s = modeOf t := by
  simp only [Machine.modeOf, h.inv, h.st_v, h.st, h.pd_v, h.pd]

@[simp] theorem modeOf_deliver (r : State × Option Message) : modeOf (deliver r) = modeOf r.1 :=
  SameDecode.modeOf ⟨deliver_st_v r, deliver_st r, deliver_pd_v r, deliver_pd r⟩

/-- The data column of R81 (41_data_bytes.md R85 on each mode). -/
theorem modeOf_dataNormalized (h : modeOf s = some m) (v : Data7) :
    modeOf (dataNormalized s v).1 = some (modeAfterData m v).1 ∧ (dataNormalized s v).2 = (modeAfterData m v).2 := by
  rcases dataNormalized_cases (inv_of_modeOf h) v with ⟨hv, hp, hd⟩ | ⟨hv, hF, hp, hd⟩ | ⟨hv, h1, hp, m', hm, hd⟩ |
    ⟨hv, h2, hp, hd⟩ | ⟨hv, h2, hp, m', hm, hd⟩ <;> rw [hd]
  · obtain rfl : Mode.idle = m := Option.some.inj ((modeOf_of_idle hv hp).symm.trans h)
    exact ⟨modeOf_of_idle rfl rfl, rfl⟩
  · obtain rfl : Mode.sysex = m := Option.some.inj ((modeOf_of_sysex hv hF hp).symm.trans h)
    exact ⟨h, rfl⟩
  · obtain rfl : Mode.running s.st = m := Option.some.inj ((modeOf_of_running hv (.inl h1) hp).symm.trans h)
    simpa [modeAfterData, h1, hm] using modeOf_of_running (s := clearPending s) hv (.inl h1) rfl
  · obtain rfl : Mode.running s.st = m := Option.some.inj ((modeOf_of_running hv (.inr h2) hp).symm.trans h)
    simpa [modeAfterData, h2] using modeOf_of_collect (s := bufferFirst v s) hv h2 rfl
  · obtain rfl : Mode.collect s.st s.pd = m := Option.some.inj ((modeOf_of_collect hv h2 hp).symm.trans h)
    simpa [modeAfterData, hm] using modeOf_of_running (s := clearPending s) hv (.inr h2) rfl

theorem modeOf_loadStatus_channelStatus (h1 : 0x80#8 ≤ b) (h2 : b ≤ 0xEF#8) (s : State) :
    modeOf (loadStatus b s) = some (.running b) :=
  modeOf_of_running (s := loadStatus b s) rfl (req_of_channelStatus b h1 h2) rfl

/-- One byte on the registers is one step of the table. -/
theorem modeOf_acceptByte (h : modeOf s = some m) (b : Byte) :
    modeOf (acceptByte s b) = some (modeStep m b).1 ∧ (stepByte s b).2 = (modeStep m b).2 := by
  rw [acceptByte, modeOf_deliver]
  rcases stepByte_cases b with ⟨-, hc, hs⟩ | ⟨-, hc, hs⟩ | ⟨h1, h2, hc, hs⟩ | ⟨-, hc, hs⟩ | ⟨-, -, hc | hc, hs⟩ <;>
    rw [hs] <;> simp only [modeStep, modeAfterStatus, hc, reduceCtorEq, if_false, if_true]
  · exact ⟨h, trivial⟩
  · rw [dataByte_of_inv (inv_of_modeOf h)]
    exact modeOf_dataNormalized h _
  · exact ⟨modeOf_loadStatus_channelStatus h1 h2 s, trivial⟩
  · exact ⟨modeOf_of_sysex rfl rfl rfl, trivial⟩
  · exact ⟨modeOf_of_idle rfl rfl, trivial⟩
  · exact ⟨modeOf_of_idle rfl rfl, trivial⟩

end

/-- Settles O43: `modeOf_acceptByte` along the stream. -/
theorem registersRefineTheModeTable : Obligations.RegistersRefineTheModeTable := by
  intro bs
  induction bs with
  | nil => exact fun s m h => ⟨h, rfl⟩
  | cons b bs ih =>
    intro s m h
    obtain ⟨hmode, hmsg⟩ := modeOf_acceptByte h b
    obtain ⟨hfinal, hmsgs⟩ := ih _ _ hmode
    exact ⟨hfinal, congrArg₂ _ (congrArg _ hmsg) hmsgs⟩

/-! ### The table along a stream -/

section
variable {s : State} {m : Mode} {S b : Byte} {bs : List Byte}

theorem modeStep_of_data (hb : b ≤ 0x7F#8) (m : Mode) : modeStep m b = modeAfterData m (dataValue b) := by
  obtain ⟨hdata, -⟩ := byteClass_iff_range b
  rw [modeStep, if_pos (hdata.mpr hb)]

theorem modeStep_data (m : Mode) (v : Data7) : modeStep m (0#1 ++ v) = modeAfterData m v := by
  have key : ∀ v : Data7, 0#1 ++ v ≤ 0x7F#8 ∧ dataValue (0#1 ++ v) = v := by decide
  obtain ⟨hb, hval⟩ := key v
  rw [modeStep_of_data hb, hval]

theorem modeStep_realTime (hb : 0xF8#8 ≤ b) (m : Mode) : modeStep m b = (m, none) := by
  have hclass : byteClass b = .realTime := if_pos hb
  simp [modeStep, modeAfterStatus, hclass]

/-- A data byte neither opens nor ends a message in `Idle` and `SysEx`. -/
theorem modeStep_of_le (hm : m = .idle ∨ m = .sysex) (hb : b ≤ 0x7F#8) : modeStep m b = (m, none) := by
  rw [modeStep_of_data hb]
  rcases hm with rfl | rfl <;> rfl

/-- The columns of a status byte are the same in every row of R81. -/
theorem modeStep_status (h7 : ¬ b ≤ 0x7F#8) (hrt : ¬ 0xF8#8 ≤ b) (m m' : Mode) : modeStep m b = modeStep m' b := by
  obtain ⟨hdata, -, -, -, -, hrealTime⟩ := byteClass_iff_range b
  rw [modeStep, modeStep, if_neg (hdata.not.mpr h7), if_neg (hdata.not.mpr h7)]
  cases hc : byteClass b
  case data => exact absurd (hdata.mp hc) h7
  case realTime => exact absurd (hrealTime.mp hc) hrt
  all_goals simp [modeAfterStatus, hc]

/-- Bytes that do nothing in a mode drop out of the front of a stream. -/
theorem runModes_append_of_modeStep (h : ∀ b ∈ bs, modeStep m b = (m, none)) (tail : List Byte) :
    runModes m (bs ++ tail) = runModes m tail := by
  induction bs with
  | nil => rfl
  | cons b bs ih =>
    obtain ⟨hb, hbs⟩ := List.forall_mem_cons.mp h
    simp [runModes, hb, ih hbs]

theorem runModes_append_of_noStatus (hm : m = .idle ∨ m = .sysex) (h : ∀ b ∈ bs, b ≤ 0x7F#8 ∨ 0xF8#8 ≤ b)
    (tail : List Byte) : runModes m (bs ++ tail) = runModes m tail :=
  runModes_append_of_modeStep (fun b hb => (h b hb).elim (modeStep_of_le hm) (modeStep_realTime · m)) tail

theorem runModes_append_of_realTime (h : ∀ b ∈ bs, 0xF8#8 ≤ b) (tail : List Byte) :
    runModes m (bs ++ tail) = runModes m tail :=
  runModes_append_of_modeStep (fun b hb => modeStep_realTime (h b hb) m) tail

/-- R84 case 3 on the table: until a status byte comes, both modes stay and deliver nothing. -/
theorem runModes_idle_eq_sysex (bs : List Byte) : (runModes .idle bs).2 = (runModes .sysex bs).2 := by
  induction bs with
  | nil => rfl
  | cons b bs ih =>
    by_cases hb : b ≤ 0x7F#8
    · simpa [runModes, modeStep_of_le (.inl rfl) hb, modeStep_of_le (.inr rfl) hb] using ih
    · by_cases hrt : 0xF8#8 ≤ b
      · simpa [runModes, modeStep_realTime hrt] using ih
      · simp only [runModes, modeStep_status hb hrt .idle .sysex]

/-- A status byte leads into its mode from every state, within the invariant or not. -/
theorem runBytes_cons_of_modeOf (hmode : modeOf (acceptByte s b) = some m) (hmsg : (stepByte s b).2 = none)
    (bs : List Byte) :
    modeOf (runBytes s (b :: bs)).1 = some (runModes m bs).1 ∧ (runBytes s (b :: bs)).2 = (runModes m bs).2 := by
  simpa [runBytes, hmsg] using registersRefineTheModeTable bs _ m hmode

theorem runBytes_cons_of_channelStatus (s : State) (hreq : req S = .one ∨ req S = .two) (bs : List Byte) :
    modeOf (runBytes s (S :: bs)).1 = some (runModes (.running S) bs).1 ∧
    (runBytes s (S :: bs)).2 = (runModes (.running S) bs).2 := by
  obtain ⟨h1, h2⟩ := channelStatus_of_req S hreq
  have hs : stepByte s S = (loadStatus S s, none) := stepByte_channelStatus h1 h2
  refine runBytes_cons_of_modeOf ?_ (by rw [hs]) bs
  rw [acceptByte, hs, modeOf_deliver]
  exact modeOf_loadStatus_channelStatus h1 h2 s

/-- One data byte group in `Running` is one message (30_encoding.md R59, R61), Real-Time bytes in it or not. -/
theorem runModes_group_one (h1 : req S = .one) (d : Data7) (tail : List Byte) :
    runModes (.running S) ((0#1 ++ d) :: tail) =
      ((runModes (.running S) tail).1, (synth S d none).toList ++ (runModes (.running S) tail).2) := by
  simp [runModes, modeStep_data, modeAfterData, h1]

theorem runModes_group_two (h2 : req S = .two) {between : List Byte} (hrt : ∀ b ∈ between, 0xF8#8 ≤ b)
    (d₁ d₂ : Data7) (tail : List Byte) :
    runModes (.running S) ((0#1 ++ d₁) :: (between ++ (0#1 ++ d₂) :: tail)) =
      ((runModes (.running S) tail).1, (synth S d₁ (some d₂)).toList ++ (runModes (.running S) tail).2) := by
  simp [runModes, modeStep_data, modeAfterData, h2, runModes_append_of_realTime hrt]

end

/-- Settles O53: both runs are runs of the table, from the two modes it does not tell apart. -/
theorem idleAndSysexAreOutputEquivalent : Obligations.IdleAndSysexAreOutputEquivalent := by
  intro bs s₁ s₂ hidle hsysex
  obtain ⟨-, h₁⟩ := registersRefineTheModeTable bs s₁ _ hidle
  obtain ⟨-, h₂⟩ := registersRefineTheModeTable bs s₂ _ hsysex
  rw [h₁, h₂, runModes_idle_eq_sysex]

/-- Settles O52: EMPTY is the mode `Idle`, which no data byte and no Real-Time byte leaves. -/
theorem nothingIsDeliveredBeforeAStatusByte : Obligations.NothingIsDeliveredBeforeAStatusByte := by
  intro s bs hempty hbs
  have hrun : runModes .idle bs = (.idle, []) := by
    simpa [runModes] using runModes_append_of_noStatus (.inl rfl) hbs []
  rw [isEmpty_iff_modeOf_eq_idle] at hempty ⊢
  obtain ⟨hmode, hmsgs⟩ := registersRefineTheModeTable bs s _ hempty
  rw [hrun] at hmode hmsgs
  exact ⟨hmsgs, hmode⟩

/-- Settles O51: 0xF0 enters `SysEx`, the payload stays there, 0xF7 leads to `Idle`. -/
theorem sysexBlockDeliversNothing : Obligations.SysexBlockDeliversNothing := by
  intro s payload hpayload
  have hrun : runModes .sysex (payload ++ [0xF7#8]) = (.idle, []) := runModes_append_of_noStatus (.inr rfl) hpayload _
  obtain ⟨hmode, hmsgs⟩ :=
    runBytes_cons_of_modeOf (s := s) (b := 0xF0#8) (modeOf_of_sysex rfl rfl rfl) rfl (payload ++ [0xF7#8])
  rw [hrun] at hmode hmsgs
  exact ⟨hmsgs, isEmpty_iff_modeOf_eq_idle.mpr hmode⟩

/-- Settles O49: the status leads into `Running`, Real-Time bytes do nothing, and the data bytes are one group. -/
theorem fullMessageFormsDeliverOneMessage : Obligations.FullMessageFormsDeliverOneMessage := by
  intro s S r₁ r₂ d₁ d₂ hr₁ hr₂
  constructor
  · intro h2
    obtain ⟨m, hm⟩ := synth_of_req_two S d₁ d₂ h2
    have hrun := runBytes_cons_of_channelStatus s (.inr h2) (r₁ ++ (0#1 ++ d₁) :: (r₂ ++ [0#1 ++ d₂]))
    rw [runModes_append_of_realTime hr₁, runModes_group_two h2 hr₂, hm] at hrun
    exact ⟨m, hm, hrun.2, hrun.1⟩
  · intro h1
    obtain ⟨m, hm⟩ := synth_of_req_one S d₁ h1
    have hrun := runBytes_cons_of_channelStatus s (.inl h1) (r₁ ++ [0#1 ++ d₁])
    rw [runModes_append_of_realTime hr₁, runModes_group_one h1, hm] at hrun
    exact ⟨m, hm, hrun.2, hrun.1⟩

/-- Along the groups of a running status (R61): its messages in order, and it still runs. -/
theorem runModes_groups_two {S : Byte} (h2 : req S = .two) (pairs : List (Data7 × Data7)) :
    (runModes (.running S) (pairs.flatMap (fun p => [0#1 ++ p.1, 0#1 ++ p.2]))).2.map some
      = pairs.map (fun p => synth S p.1 (some p.2)) ∧
    (runModes (.running S) (pairs.flatMap (fun p => [0#1 ++ p.1, 0#1 ++ p.2]))).1 = .running S := by
  induction pairs with
  | nil => exact ⟨rfl, rfl⟩
  | cons p pairs ih =>
    obtain ⟨hmsgs, hmode⟩ := ih
    obtain ⟨m, hm⟩ := synth_of_req_two S p.1 p.2 h2
    have hgroup := runModes_group_two h2 (between := []) (by simp) p.1 p.2
      (pairs.flatMap (fun p => [0#1 ++ p.1, 0#1 ++ p.2]))
    rw [List.nil_append, hm] at hgroup
    rw [List.flatMap_cons, List.cons_append, List.singleton_append, hgroup]
    exact ⟨by simp [hmsgs, hm], hmode⟩

theorem runModes_groups_one {S : Byte} (h1 : req S = .one) (ds : List Data7) :
    (runModes (.running S) (ds.map (fun d => 0#1 ++ d))).2.map some = ds.map (fun d => synth S d none) ∧
    (runModes (.running S) (ds.map (fun d => 0#1 ++ d))).1 = .running S := by
  induction ds with
  | nil => exact ⟨rfl, rfl⟩
  | cons d ds ih =>
    obtain ⟨hmsgs, hmode⟩ := ih
    obtain ⟨m, hm⟩ := synth_of_req_one S d h1
    rw [List.map_cons, runModes_group_one h1, hm]
    exact ⟨by simp [hmsgs, hm], hmode⟩

/-- Settles O50: the registers run as the table does, and the table takes group after group. -/
theorem runningStatusDeliversOneMessagePerGroup : Obligations.RunningStatusDeliversOneMessagePerGroup := by
  intro S s hrunning
  constructor
  · intro h2 pairs
    obtain ⟨hmode, hmsgs⟩ := registersRefineTheModeTable (pairs.flatMap (fun p => [0#1 ++ p.1, 0#1 ++ p.2])) s _ hrunning
    obtain ⟨hgroups, hrun⟩ := runModes_groups_two h2 pairs
    exact ⟨hmsgs ▸ hgroups, hmode.trans (congrArg some hrun)⟩
  · intro h1 ds
    obtain ⟨hmode, hmsgs⟩ := registersRefineTheModeTable (ds.map (fun d => 0#1 ++ d)) s _ hrunning
    obtain ⟨hgroups, hrun⟩ := runModes_groups_one h1 ds
    exact ⟨hmsgs ▸ hgroups, hmode.trans (congrArg some hrun)⟩

/-! ### The live decode state -/

/-- The two states hold the same options; dead bits, port, pins and draws are free (10_state.md R29). -/
structure SameLive (s t : State) : Prop where
  status : s.status = t.status
  pending : s.pending = t.pending

section
variable {s t : State} {b : Byte}

theorem SameLive.modeOf (h : SameLive s t) : modeOf s = modeOf t :=
  Option.ext fun m => by rw [modeOf_eq_some_iff, modeOf_eq_some_iff, h.status, h.pending]

theorem sameLive_of_modeOf {m : Mode} (hs : modeOf s = some m) (ht : modeOf t = some m) : SameLive s t := by
  obtain ⟨-, hst, hpd⟩ := modeOf_eq_some_iff.mp hs
  obtain ⟨-, hst', hpd'⟩ := modeOf_eq_some_iff.mp ht
  exact ⟨hst.trans hst'.symm, hpd.trans hpd'.symm⟩

theorem sameLive_resync (s t : State) : SameLive (resync s) (resync t) := ⟨rfl, rfl⟩

theorem sameLive_deliver (r : State × Option Message) : SameLive (deliver r) r.1 :=
  ⟨by simp only [State.status, deliver_st_v, deliver_st], by simp only [State.pending, deliver_pd_v, deliver_pd]⟩

/-- Within the invariant the table decides (R81); outside it, both are emptied (R72). -/
theorem SameLive.dataByte (h : SameLive s t) (v : Data7) :
    (dataByte s v).2 = (dataByte t v).2 ∧ SameLive (dataByte s v).1 (dataByte t v).1 := by
  have hinv : inv s = inv t := by rw [← modeOf_isSome, h.modeOf, modeOf_isSome]
  cases ht : inv t
  · rw [dataByte_of_not_inv ht, dataByte_of_not_inv (hinv.trans ht)]
    exact ⟨rfl, sameLive_resync s t⟩
  · obtain ⟨m, hm⟩ := Option.isSome_iff_exists.mp ((modeOf_isSome t).trans ht)
    rw [dataByte_of_inv ht, dataByte_of_inv (hinv.trans ht)]
    obtain ⟨hmode, hmsg⟩ := modeOf_dataNormalized (h.modeOf.trans hm) v
    obtain ⟨hmode', hmsg'⟩ := modeOf_dataNormalized hm v
    exact ⟨hmsg.trans hmsg'.symm, sameLive_of_modeOf hmode hmode'⟩

theorem SameLive.stepByte (h : SameLive s t) (b : Byte) :
    (stepByte s b).2 = (stepByte t b).2 ∧ SameLive (stepByte s b).1 (stepByte t b).1 := by
  rcases stepByte_cases b with ⟨-, -, hs⟩ | ⟨-, -, hs⟩ | ⟨-, -, -, hs⟩ | ⟨-, -, hs⟩ | ⟨-, -, -, hs⟩ <;>
    rw [hs, hs]
  · exact ⟨rfl, h⟩
  · exact h.dataByte _
  · exact ⟨rfl, rfl, rfl⟩
  · exact ⟨rfl, rfl, rfl⟩
  · exact ⟨rfl, sameLive_resync s t⟩

end

/-- Settles O47: an instruction runs its byte's step, which reads the live decode state only, and its port write. -/
theorem resultDependsOnlyOnTheLiveDecodeState : Obligations.ResultDependsOnlyOnTheLiveDecodeState := by
  intro i s₁ s₂ t₁ t₂ hst hpd h₁ h₂
  obtain rfl := Host.Outcome.next.inj ((exec_eq_acceptByte i s₁).symm.trans h₁)
  obtain rfl := Host.Outcome.next.inj ((exec_eq_acceptByte i s₂).symm.trans h₂)
  obtain ⟨hmsg, hlive⟩ := SameLive.stepByte ⟨hst, hpd⟩ (encodeByte i)
  have hd₁ := sameLive_deliver (stepByte s₁ (encodeByte i))
  have hd₂ := sameLive_deliver (stepByte s₂ (encodeByte i))
  exact ⟨(hd₁.status.trans hlive.status).trans hd₂.status.symm, (hd₁.pending.trans hlive.pending).trans hd₂.pending.symm,
    by rw [portMessage_acceptByte, portMessage_acceptByte, hmsg]⟩

end Sys2Proof.Machine
end

section
/-! The other edges of 20_memory.md R34 and what they accept: idle edges, unstable bytes, a decoded byte, and a new source of
the pins. -/

namespace Sys2Proof

/-- A 4-bit nibble is in its range by its width (30_encoding.md R55). -/
theorem decide_nibble_le (c : BitVec 4) : decide (c.toNat ≤ 15) = true := decide_eq_true (Nat.le_of_lt_succ c.isLt)

theorem Instr.wellFormed_eq_true (i : Instr) : i.wellFormed = true := by
  cases i with
  | data v => exact decide_eq_true (Nat.le_of_lt_succ v.isLt)
  | noteOff c | noteOn c | noteAftertouch c | controlChange c | programChange c | channelAftertouch c | pitchBend c =>
    exact decide_nibble_le c
  | _ => rfl

end Sys2Proof

namespace Sys2Proof.Machine

/-- Settles O4: the idle edge is `idleEdge` on what is left of the pins. -/
theorem idleEdgeKeepsTheDecodeState : Obligations.IdleEdgeKeepsTheDecodeState := fun _ _ _ hp hr hv =>
  step_of_idle (nextEdge_idle hp hr hv)

/-- Settles O5: past the end of the list the edge is `idleEdge` too. -/
theorem emptyPinListIsAnIdleEdge : Obligations.EmptyPinListIsAnIdleEdge := fun _ hp => step_of_idle (nextEdge_nil hp)

/-- Settles O7: the step decodes the accepted byte, and every instruction is well formed. -/
theorem acceptedByteRunsItsInstruction : Obligations.AcceptedByteRunsItsInstruction := by
  intro s b i rest hp hdecode
  obtain rfl : decodeByte b = i := by simpa [decode] using hdecode
  exact ⟨Instr.wellFormed_eq_true _, step_of_accept (nextEdge_stable hp rfl rfl rfl)⟩

/-- Settles O8: the edge accepts the free value of its draw. -/
theorem unstableByteRunsAFreeByte : Obligations.UnstableByteRunsAFreeByte := fun _ _ hp =>
  step_of_accept (nextEdge_unstable hp rfl rfl rfl)

/-- Settles O9: the presented edge is the first of the list, and taking it off gives the original state back. -/
theorem presentedWordRunsAtTheNextEdge : Obligations.PresentedWordRunsAtTheNextEdge := by
  intro s w i hi
  obtain rfl : decodeByte (tableByte 8 w) = i := by simpa [decodeTableWord, decode] using hi
  exact step_of_accept (nextEdge_stable (presentByte_pins (tableByte 8 w) s) rfl rfl rfl)

/-- Settles O10: with `in_valid = 0` the edge is a reset edge or an idle one, and neither reads `in_byte`. -/
theorem inByteIsNotReadWithoutInValid : Obligations.InByteIsNotReadWithoutInValid := by
  intro s r x y rest
  cases r with
  | false => exact (step_of_idle (nextEdge_idle rfl rfl rfl)).trans (step_of_idle (nextEdge_idle rfl rfl rfl)).symm
  | true => exact (step_of_rst rfl rfl).trans (step_of_rst rfl rfl).symm

theorem stepByte_data_append (s : State) (v : Data7) : stepByte s (0#1 ++ v) = dataByte s v := by
  have key : ∀ v : Data7, (0#1 ++ v).getLsbD 7 = false ∧ dataValue (0#1 ++ v) = v := by decide
  obtain ⟨hbit, hval⟩ := key v
  rw [stepByte_data hbit, hval]

/-- Settles O12: within the invariant a buffered byte stands under a two-data-byte status, so the byte of the new source is
its second one (R90). -/
theorem rebindingTheSourceKeepsAPartialMessage : Obligations.RebindingTheSourceKeepsAPartialMessage := by
  intro s source v m hv hp hinv hsynth
  obtain ⟨-, h2⟩ := ((inv_iff s).mp hinv).2 hp
  refine ⟨rfl, _, step_of_stable rfl rfl rfl rfl, ?_, (acceptByte_keeps_inputs _ _).1⟩
  obtain ⟨m', hm', hdata⟩ := dataByte_of_req_two_second (s := { s with pins := source }) hv h2 hp v
  rw [portMessage_acceptByte]
  exact (congrArg Prod.snd ((stepByte_data_append _ v).trans hdata)).trans (hm'.symm.trans hsynth)

end Sys2Proof.Machine
end

section
/-! What is synthesized and when (42_synthesizer.md R98, R107; 41_data_bytes.md section 3): the two failures, the range of a
message, the states that deliver, and `INV` with `norm`. -/

namespace Sys2Proof.Machine

/-- Settles O23: `inv_iff`, and the two cases of `norm`. -/
theorem dataByteOutsideTheInvariantEmpties : Obligations.DataByteOutsideTheInvariantEmpties := fun s v =>
  ⟨inv_iff s, norm_of_inv, fun h => ⟨norm_of_not_inv h, exec_of_dataByte_eq_none (dataByte_of_not_inv h v)⟩⟩

section
variable {s : State} {S : Byte} {d v : Data7} {d2 : Option Data7} {m : Message}

/-- A one-data-byte kind ignores a second byte (R106). -/
theorem synth_ignores_second (h1 : req S = .one) (d : Data7) (d2 : Option Data7) : synth S d d2 = synth S d none := by
  have key : ∀ S : Byte, req S = .one → upperNibble S = 0xC#4 ∨ upperNibble S = 0xD#4 := by decide
  rcases key S h1 with hn | hn
  · rw [synth_programChange hn rfl, synth_programChange hn rfl]
  · rw [synth_channelAftertouch hn rfl, synth_channelAftertouch hn rfl]

theorem synth_eq_none_iff : synth S d d2 = none ↔ req S = .unsupported ∨ req S = .two ∧ d2 = none := by
  cases hreq : req S with
  | zero => exact absurd hreq (req_ne_zero S)
  | one =>
    obtain ⟨m, hm⟩ := synth_of_req_one S d hreq
    simp [synth_ignores_second hreq, hm]
  | two =>
    cases d2 with
    | none => simp [synth_none_of_req_two hreq]
    | some v =>
      obtain ⟨m, hm⟩ := synth_of_req_two S d v hreq
      simp [hm]
  | unsupported => simp [synth_of_req_unsupported hreq]

/-- The kind is the family code, the upper nibble less 8 (30_encoding.md R56, R67). -/
theorem synth_kind (h : synth S d d2 = some m) : (portOf m).kind.toNat + 8 = (upperNibble S).toNat := by
  unfold synth at h
  split_ifs at h with h8 h9 hA hB hC hD hE <;> cases d2 <;> simp at h <;> subst h <;> simp [portOf, *]

theorem upperNibble_toNat : ∀ S : Byte, (upperNibble S).toNat = S.toNat / 16 := by decide

end

/-- Settles O28: by the count the status requires. -/
theorem synthesizerFailsExactlyWhenIncomplete : Obligations.SynthesizerFailsExactlyWhenIncomplete := by
  intro S d1 d2
  rw [synth_eq_none_iff, req_eq_unsupported_iff]

/-- Settles O29: the channel is the status's, and the kind its family. -/
theorem synthesizedMessagesAreInRange : Obligations.SynthesizedMessagesAreInRange := by
  intro S d1 d2 m h
  have hkind := synth_kind h
  rw [upperNibble_toNat] at hkind
  exact ⟨synth_wellFormed h, by rw [synth_channel h, channelOf_toNat], by omega⟩

/-- A delivery has every data byte its status requires, and is the synthesizer's message of them (R88, R90). -/
theorem synth_of_dataByte_eq_some {s : State} {v : Data7} {m : Message} (h : (dataByte s v).2 = some m) :
    (req s.st = .one ∨ s.pd_v = true) ∧
    synth s.st (if s.pd_v then s.pd else v) (if s.pd_v then some v else none) = some m := by
  cases hinv : inv s
  · simp [dataByte_of_not_inv hinv] at h
  · rw [dataByte_of_inv hinv] at h
    rcases dataNormalized_cases hinv v with ⟨-, -, hd⟩ | ⟨-, -, -, hd⟩ | ⟨-, h1, hp, m', hm, hd⟩ | ⟨-, -, -, hd⟩ |
      ⟨-, -, hp, m', hm, hd⟩ <;> rw [hd] at h
    case inr.inr.inl => exact ⟨.inl h1, by simpa [hp] using hm.trans h⟩
    case inr.inr.inr.inr => exact ⟨.inr hp, by simpa [hp] using hm.trans h⟩
    all_goals simp at h

theorem decodeByte_of_le : ∀ b : Byte, b ≤ 0x7F#8 → decodeByte b = .data (dataValue b) := by decide

/-- Settles O33: `msg_valid` rises with a message, which only a data byte under a channel status delivers. -/
theorem onlyACompletingDataByteDelivers : Obligations.OnlyACompletingDataByteDelivers := by
  intro i s t ht hvalid
  obtain rfl := Host.Outcome.next.inj ((exec_eq_acceptByte i s).symm.trans ht)
  rw [msg_valid_acceptByte] at hvalid
  obtain ⟨m, hm⟩ := Option.isSome_iff_exists.mp hvalid
  have hb := le_of_stepByte_eq_some hm
  obtain ⟨hv, ⟨hlow, hhigh⟩, hs⟩ := stepByte_of_eq_some hm
  have hdata := hm
  rw [stepByte_of_le hb] at hdata
  obtain ⟨hcomplete, hsynth⟩ := synth_of_dataByte_eq_some hdata
  refine ⟨dataValue (encodeByte i), ?_, hv, hlow, hhigh, hcomplete, ?_⟩
  · rw [← decodeByte_of_le _ hb, decodeByte_encodeByte]
  · rw [portMessage_acceptByte, hm, hsynth, acceptByte, hs]
    exact ⟨hv, rfl, rfl, rfl⟩

end Sys2Proof.Machine
end

section
/-! Labels (60_exceptions.md R110 to R113): the codes, and the label of each branch of R85 beside what the branch answers. -/

namespace Sys2Proof.Machine

/-! ### The codes -/

/-- The labels in the order of R110. -/
def labelsInOrder : List Label :=
  [.delivered, .idle, .absorbRt, .statusLoaded, .sysexStart, .dataBuffered, .sysexPayload, .sysexEnd, .invStrayData,
    .invLoneEox, .invUnsupportedStatus, .invInterrupted, .invSynthFail]

/-- A label's code is its place in that order. -/
theorem labelsInOrder_getElem?_labelCode (a : Label) : labelsInOrder[labelCode a]? = some a := by cases a <;> rfl

/-- Settles O45: the places of a list of 13 are 0 to 12, and a place holds one label. -/
theorem labelCodesAreDistinct : Obligations.LabelCodesAreDistinct := by
  intro a b
  have ha := labelsInOrder_getElem?_labelCode a
  obtain ⟨hlt, -⟩ := List.getElem?_eq_some_iff.mp ha
  refine ⟨Nat.le_of_lt_succ hlt, fun h => ?_⟩
  rw [h, labelsInOrder_getElem?_labelCode] at ha
  exact (Option.some.inj ha).symm

/-! ### The label of a data byte -/

section
variable {s : State} {b : Byte} {v : Data7}

/-- The branches of R85 with their labels (R112, items 9 to 13): `INV_SYNTH_FAIL` has none. -/
theorem dataLabel_cases (h : inv s = true) (v : Data7) :
    (dataNormalized s v = (resync s, none) ∧ dataLabel s v = .invStrayData) ∨
    (dataNormalized s v = (s, none) ∧ dataLabel s v = .sysexPayload) ∨
    (s.st ≠ 0xF0#8 ∧ s.pd_v = false ∧ dataNormalized s v = (bufferFirst v s, none) ∧ dataLabel s v = .dataBuffered) ∨
    ∃ m, dataNormalized s v = (clearPending s, some m) ∧ dataLabel s v = .delivered := by
  rcases dataNormalized_cases h v with ⟨hv, -, hd⟩ | ⟨hv, hF, -, hd⟩ | ⟨hv, h1, hp, m, hm, hd⟩ | ⟨hv, h2, hp, hd⟩ |
    ⟨hv, h2, hp, m, hm, hd⟩
  · exact .inl ⟨hd, by simp [dataLabel, hv]⟩
  · exact .inr (.inl ⟨hd, by simp [dataLabel, hv, hF]⟩)
  · exact .inr (.inr (.inr ⟨m, hd, by simp [dataLabel, synthesis, hv, ne_sysexStart_of_req _ (.inl h1), h1, hm]⟩))
  · have hne := ne_sysexStart_of_req _ (.inr h2)
    exact .inr (.inr (.inl ⟨hne, hp, hd, by simp [dataLabel, synthesis, hv, hne, h2, hp]⟩))
  · exact .inr (.inr (.inr ⟨m, hd, by
      simp [dataLabel, synthesis, hv, ne_sysexStart_of_req _ (.inr h2), h2, hp, hm]⟩))

theorem zero_append_dataValue : ∀ b : Byte, b ≤ 0x7F#8 → 0#1 ++ dataValue b = b := by decide

theorem label_of_le (hb : b ≤ 0x7F#8) (s : State) : label s (.byte b) = dataLabel (norm s) (dataValue b) := by
  rw [← label_data, zero_append_dataValue b hb]

/-- The bytes that resynchronize have the labels of codes 7, 9 and 10 (R112, items 3 to 5). -/
theorem label_resync (h1 : 0xF1#8 ≤ b) (h7 : b ≤ 0xF7#8) :
    label s (.byte b) = .sysexEnd ∨ label s (.byte b) = .invLoneEox ∨ label s (.byte b) = .invUnsupportedStatus := by
  have key : ∀ b : Byte, b ≤ 0xF7#8 → b = 0xF7#8 ∨ b ≤ 0xF6#8 := by decide
  rcases key b h7 with rfl | h6
  · rw [label_eox]
    split_ifs <;> simp
  · exact .inr (.inr (label_otherSystemCommon h1 h6))

end

/-- Settles O44: of the classes of R71 only a data byte delivers, and of its branches only those labelled `DELIVERED`. -/
theorem deliveredLabelIffAMessageIsDelivered : Obligations.DeliveredLabelIffAMessageIsDelivered := by
  intro s b
  rcases stepByte_cases b with ⟨hb, -, hs⟩ | ⟨hb, -, hs⟩ | ⟨h1, h2, -, hs⟩ | ⟨rfl, -, hs⟩ | ⟨h1, h7, -, hs⟩ <;>
    rw [msg_valid_acceptByte, hs]
  · simp [label_realTime hb]
  · rw [label_of_le hb, dataByte]
    rcases dataLabel_cases (inv_norm s) (dataValue b) with ⟨hd, hl⟩ | ⟨hd, hl⟩ | ⟨-, -, hd, hl⟩ | ⟨m, hd, hl⟩ <;>
      simp [hd, hl]
  · rw [label_channelStatus h1 h2]
    split_ifs <;> simp
  · rw [label_sysexStart]
    split_ifs <;> simp
  · rcases label_resync (s := s) h1 h7 with hl | hl | hl <;> simp [hl]

/-! ### What the incomplete outcomes keep -/

/-- The buffered byte with its status, and the SysEx block, of `s` are still there in `t` (R113). -/
def KeepsCollected (s t : State) : Prop :=
  (s.pd_v = true → t.st_v = true ∧ t.st = s.st ∧ t.pd_v = true ∧ t.pd = s.pd) ∧ (isSysex s = true → isSysex t = true)

section
variable {s t : State} {b : Byte}

theorem SameDecode.keepsCollected (h : SameDecode t s) (hinv : Machine.inv s = true) : KeepsCollected s t := by
  constructor
  · intro hp
    obtain ⟨hv, -⟩ := ((inv_iff s).mp hinv).2 hp
    exact ⟨h.st_v.trans hv, h.st, h.pd_v.trans hp, h.pd⟩
  · simp only [isSysex, h.st_v, h.st, h.pd_v, imp_self]

theorem keepsCollected_of_nothing (hp : s.pd_v = false) (hx : isSysex s = false) (t : State) : KeepsCollected s t :=
  ⟨fun h => by simp [hp] at h, fun h => by simp [hx] at h⟩

/-- A status byte whose label is not `INV_INTERRUPTED` finds nothing collected (R112, items 6 to 8). -/
theorem keepsCollected_of_not_interrupted (hinv : inv s = true) {l : Label}
    (hl : label s (.byte b) = if isCollect s ∨ isSysex s then .invInterrupted else l)
    (hcode : labelCode (label s (.byte b)) ≤ 6) (t : State) : KeepsCollected s t := by
  have hfree : ¬ (isCollect s = true ∨ isSysex s = true) := by
    intro h
    rw [hl, if_pos h] at hcode
    exact absurd hcode (by decide)
  obtain ⟨hcollect, hsysex⟩ := not_or.mp hfree
  refine keepsCollected_of_nothing ?_ (Bool.eq_false_iff.mpr hsysex) t
  by_contra hp
  rw [Bool.not_eq_false] at hp
  obtain ⟨hv, h2⟩ := ((inv_iff s).mp hinv).2 hp
  exact hcollect (by simp [isCollect, hv, hp, h2])

end

/-- Settles O46: an outcome of codes 1 to 6 leaves the decode registers alone, or there was nothing collected. -/
theorem incompleteOutcomesKeepWhatWasCollected : Obligations.IncompleteOutcomesKeepWhatWasCollected := by
  intro s b hinv hmin hmax
  change KeepsCollected s (acceptByte s b)
  rcases stepByte_cases b with ⟨hb, -, hs⟩ | ⟨hb, -, hs⟩ | ⟨h1, h2, -, hs⟩ | ⟨rfl, -, hs⟩ | ⟨h1, h7, -, hs⟩
  · exact ((SameDecode.refl s).acceptByte_realTime hb).keepsCollected hinv
  · rw [label_of_le hb, norm_of_inv hinv] at hmin hmax
    rw [acceptByte, hs, dataByte_of_inv hinv]
    rcases dataLabel_cases hinv (dataValue b) with ⟨-, hl⟩ | ⟨hd, -⟩ | ⟨hne, hp, -, -⟩ | ⟨m, -, hl⟩
    · simp [hl, labelCode] at hmax
    · rw [hd]
      exact SameDecode.keepsCollected ⟨rfl, rfl, rfl, rfl⟩ hinv
    · exact keepsCollected_of_nothing hp (by simp [isSysex, hne]) _
    · simp [hl, labelCode] at hmin
  · exact keepsCollected_of_not_interrupted hinv (label_channelStatus h1 h2) hmax _
  · exact keepsCollected_of_not_interrupted hinv label_sysexStart hmax _
  · rcases label_resync (s := s) h1 h7 with hl | hl | hl <;> simp [hl, labelCode] at hmax

end Sys2Proof.Machine
end

section
/-! Idle edges (70_reset_and_hazards.md R137, R140). A simulation: one side takes the edges the host drives, the other the
accepted bytes back to back. An orderly edge is idle or accepts a stable byte; an idle one leaves the decode registers alone
and offers nothing. -/

namespace Sys2Proof.Machine

section
variable {s t : State} {p : Pins} {rest : List Pins}

/-- What an orderly edge does. -/
theorem step_of_orderly (hp : s.pins = p :: rest) (ho : p.orderly = true) :
    (p.accepted? = none ∧ step s = .next (idleEdge { s with pins := rest })) ∨
    ∃ b, p.accepted? = some b ∧ step s = .next (acceptByte { s with pins := rest } b) := by
  cases hr : p.rst with
  | true => simp [Pins.orderly, hr] at ho
  | false =>
    cases hv : p.in_valid with
    | false => exact .inl ⟨by simp [Pins.accepted?, hr, hv], step_of_idle (nextEdge_idle hp hr hv)⟩
    | true =>
      cases hb : p.in_byte with
      | stable b => exact .inr ⟨b, by simp [Pins.accepted?, hr, hv, hb], step_of_stable hp hr hv hb⟩
      | unstable => simp [Pins.orderly, hr, hv, hb] at ho

theorem SameDecode.runEdges (h : SameDecode s t) (ho : ∀ p ∈ s.pins, p.orderly = true) :
    (runEdges s.pins.length s).2 = (runBytes t (s.pins.filterMap Pins.accepted?)).2 ∧
    SameDecode (runEdges s.pins.length s).1 (runBytes t (s.pins.filterMap Pins.accepted?)).1 := by
  induction hp : s.pins generalizing s t with
  | nil => exact ⟨rfl, h⟩
  | cons p rest ih =>
    rw [hp] at ho
    obtain ⟨hop, horest⟩ := List.forall_mem_cons.mp ho
    rcases step_of_orderly hp hop with ⟨hnone, hs⟩ | ⟨b, hsome, hs⟩
    · have hkeep : SameDecode (idleEdge { s with pins := rest }) t := ⟨h.st_v, h.st, h.pd_v, h.pd⟩
      rw [List.filterMap_cons_none hnone, List.length_cons, Machine.runEdges, hs]
      exact ih hkeep horest rfl
    · have hregs : SameDecode { s with pins := rest } t := ⟨h.st_v, h.st, h.pd_v, h.pd⟩
      have hpins : (Machine.acceptByte { s with pins := rest } b).pins = rest := (acceptByte_keeps_inputs _ _).1
      obtain ⟨hmsg, -⟩ := hregs.stepByte b
      obtain ⟨hmsgs, hfinal⟩ := ih (hregs.acceptByte b) (by rwa [hpins]) hpins
      rw [List.filterMap_cons_some hsome, List.length_cons, Machine.runEdges, hs, Machine.runBytes]
      exact ⟨congrArg₂ _ (congrArg _ ((portMessage_acceptByte _ b).trans hmsg)) hmsgs, hfinal⟩

theorem SameDecode.sameLive (h : SameDecode s t) : SameLive s t :=
  ⟨by simp only [State.status, h.st_v, h.st], by simp only [State.pending, h.pd_v, h.pd]⟩

end

/-- Settles O55: the simulation from a state to itself. -/
theorem idleEdgesDoNotChangeTheMessages : Obligations.IdleEdgesDoNotChangeTheMessages := by
  intro s ho
  obtain ⟨hmsgs, hregs⟩ := (SameDecode.refl s).runEdges ho
  exact ⟨hmsgs, hregs.sameLive.status, hregs.sameLive.pending⟩

end Sys2Proof.Machine
end

section
/-! The source's calls (40_step_and_nondata.md R84). A simulation: `CallHolds` relates what a call leaves to a mode of the
table, and one call answers what the table delivers on the bytes the call consumed, `answers_decodeCall`. The scan of a SysEx
block gives up at a Real-Time byte where the table stays in `SysEx`; it is enough that `Idle` and `SysEx` deliver the same
(R84 case 3). Each call reads a byte if there is one, so calls after the last arrival read the stream to its end. -/

namespace Sys2Proof.Machine

/-! ### The scans, one equation per byte read -/

theorem getLsbD_seven_of_not_le : ∀ b : Byte, ¬ b ≤ 0x7F#8 → b.getLsbD 7 = true := by decide

theorem getLsbD_seven_ne_true {b : Byte} (hb : b ≤ 0x7F#8) : ¬ b.getLsbD 7 = true :=
  Bool.eq_false_iff.mp (getLsbD_seven_of_le b hb)

theorem not_realTime_of_le : ∀ b : Byte, b ≤ 0x7F#8 → ¬ 0xF8#8 ≤ b := by decide

section
variable {cs : CallState} {S b : Byte} {d : Data7} {rest : List Byte}

theorem sysexScan_cons_data (hb : b ≤ 0x7F#8) : sysexScan cs (b :: rest) = sysexScan cs rest := by
  have key : ∀ b : Byte, b ≤ 0x7F#8 → b ≠ 0xF7#8 := by decide
  rw [sysexScan, if_neg (key b hb), if_neg (getLsbD_seven_ne_true hb)]

/-- A status or Real-Time byte ends the scan; EOX is consumed, any other is left. -/
theorem sysexScan_cons_status (hb : ¬ b ≤ 0x7F#8) :
    sysexScan cs (b :: rest) = ⟨callEmpty, if b = 0xF7#8 then rest else b :: rest, none⟩ := by
  rw [sysexScan, if_pos (getLsbD_seven_of_not_le b hb)]
  split_ifs <;> rfl

theorem callCollect_cons_realTime (hrt : 0xF8#8 ≤ b) (p : Option Data7) :
    callCollect S p (b :: rest) = callCollect S p rest := by
  rw [callCollect.eq_def]
  exact if_pos hrt

theorem callCollect_cons_status (h7 : ¬ b ≤ 0x7F#8) (hrt : ¬ 0xF8#8 ≤ b) (p : Option Data7) :
    callCollect S p (b :: rest) = ⟨callEmpty, b :: rest, none⟩ := by
  rw [callCollect.eq_def]
  exact (if_neg hrt).trans (if_pos (getLsbD_seven_of_not_le b h7))

/-- The data byte that completes a group, and the first of two (41_data_bytes.md R88 to R90). -/
theorem callCollect_cons_second (hb : b ≤ 0x7F#8) :
    callCollect S (some d) (b :: rest) = callFinish S rest (synth S d (some (dataValue b))) := by
  rw [callCollect, if_neg (not_realTime_of_le b hb), if_neg (getLsbD_seven_ne_true hb)]

theorem callCollect_cons_one (hb : b ≤ 0x7F#8) (h1 : req S = .one) :
    callCollect S none (b :: rest) = callFinish S rest (synth S (dataValue b) none) := by
  rw [callCollect, if_neg (not_realTime_of_le b hb), if_neg (getLsbD_seven_ne_true hb), if_pos h1]

theorem callCollect_cons_first (hb : b ≤ 0x7F#8) (h1 : req S ≠ .one) :
    callCollect S none (b :: rest) = callCollect S (some (dataValue b)) rest := by
  rw [callCollect, if_neg (not_realTime_of_le b hb), if_neg (getLsbD_seven_ne_true hb), if_neg h1]

theorem decodeCall_cons_realTime (hrt : 0xF8#8 ≤ b) : decodeCall cs (b :: rest) = ⟨cs, rest, none⟩ := if_pos hrt

theorem decodeCall_cons_status (h7 : ¬ b ≤ 0x7F#8) (hrt : ¬ 0xF8#8 ≤ b) :
    decodeCall cs (b :: rest) = callStatus b rest := by
  rw [decodeCall, if_neg hrt, if_pos (getLsbD_seven_of_not_le b h7)]

theorem decodeCall_cons_data (hb : b ≤ 0x7F#8) : decodeCall cs (b :: rest) = callData cs b rest := by
  rw [decodeCall, if_neg (not_realTime_of_le b hb), if_neg (getLsbD_seven_ne_true hb)]

/-! ### Every call reads a byte -/

@[simp] theorem callFinish_rest (m : Option Message) : (callFinish S rest m).rest = rest := by cases m <;> rfl

theorem sysexScan_rest_length (cs : CallState) (bs : List Byte) : (sysexScan cs bs).rest.length ≤ bs.length := by
  induction bs with
  | nil => exact le_rfl
  | cons b bs ih =>
    by_cases hb : b ≤ 0x7F#8
    · rw [sysexScan_cons_data hb]
      exact ih.trans (Nat.le_succ _)
    · rw [sysexScan_cons_status hb]
      split_ifs <;> simp

theorem callCollect_rest_length (S : Byte) (p : Option Data7) (bs : List Byte) :
    (callCollect S p bs).rest.length ≤ bs.length ∧
    ∀ b ≤ 0x7F#8, (callCollect S p (b :: bs)).rest.length ≤ bs.length := by
  have hdata : ∀ bs, (∀ p, (callCollect S p bs).rest.length ≤ bs.length) →
      ∀ p, ∀ b ≤ 0x7F#8, (callCollect S p (b :: bs)).rest.length ≤ bs.length := by
    intro bs hbs p b hb
    cases p with
    | some d => simp [callCollect_cons_second hb]
    | none =>
      by_cases h1 : req S = .one
      · simp [callCollect_cons_one hb h1]
      · rw [callCollect_cons_first hb h1]
        exact hbs _
  have hall : ∀ p, (callCollect S p bs).rest.length ≤ bs.length := by
    induction bs with
    | nil => exact fun p => le_rfl
    | cons b bs ih =>
      intro p
      by_cases hb : b ≤ 0x7F#8
      · exact (hdata bs ih p b hb).trans (Nat.le_succ _)
      · by_cases hrt : 0xF8#8 ≤ b
        · rw [callCollect_cons_realTime hrt]
          exact (ih p).trans (Nat.le_succ _)
        · rw [callCollect_cons_status hb hrt]
  exact ⟨hall p, hdata bs hall p⟩

theorem callStatus_rest_length (b : Byte) (rest : List Byte) : (callStatus b rest).rest.length ≤ rest.length := by
  rw [callStatus]
  split_ifs
  · exact sysexScan_rest_length _ _
  · exact (callCollect_rest_length b none rest).1
  · exact le_rfl

theorem callData_rest_length (hb : b ≤ 0x7F#8) : (callData cs b rest).rest.length ≤ rest.length := by
  rw [callData]
  cases cs.status with
  | none => exact le_rfl
  | some S =>
    dsimp only
    split_ifs
    · exact sysexScan_rest_length _ _
    · exact (callCollect_rest_length S cs.pending rest).2 b hb

theorem decodeCall_rest_length (cs : CallState) (bs : List Byte) :
    (decodeCall cs bs).rest.length ≤ bs.length - 1 := by
  cases bs with
  | nil => exact le_rfl
  | cons b rest =>
    by_cases hb : b ≤ 0x7F#8
    · rw [decodeCall_cons_data hb]
      exact callData_rest_length hb
    · by_cases hrt : 0xF8#8 ≤ b
      · rw [decodeCall_cons_realTime hrt]
        exact le_rfl
      · rw [decodeCall_cons_status hb hrt]
        exact callStatus_rest_length b rest

/-- Calls without arrivals read what is unread, at least a byte each. -/
theorem runCalls_replicate_unread (cs : CallState) (unread : List Byte) {n : Nat} (hn : unread.length ≤ n) :
    (runCalls cs unread (List.replicate n [])).2.1 = [] := by
  induction n generalizing cs unread with
  | zero => exact List.eq_nil_of_length_eq_zero (Nat.le_zero.mp hn)
  | succ n ih =>
    have hlen := decodeCall_rest_length cs (unread ++ [])
    rw [List.append_nil] at hlen
    simp only [List.replicate_succ, runCalls, List.append_nil]
    exact ih _ _ (by omega)

theorem runCalls_unread (cs : CallState) (unread : List Byte) (arrivals : List (List Byte)) {n : Nat}
    (hn : unread.length + arrivals.flatten.length ≤ n) :
    (runCalls cs unread (arrivals ++ List.replicate n [])).2.1 = [] := by
  induction arrivals generalizing cs unread with
  | nil => exact runCalls_replicate_unread cs unread (by simpa using hn)
  | cons arrived more ih =>
    have hlen := decodeCall_rest_length cs (unread ++ arrived)
    simp only [List.flatten_cons, List.length_append] at hn hlen
    exact ih _ _ (by omega)

end

/-! ### One call against the table -/

/-- What the source holds between calls in each mode (10_state.md R22); a payload byte it has buffered under 0xF0 is dead. -/
inductive CallHolds : CallState → Mode → Prop
  | idle : CallHolds callEmpty .idle
  | sysex (p : Option Data7) : CallHolds ⟨some 0xF0#8, p⟩ .sysex
  | running {S : Byte} (hreq : req S = .one ∨ req S = .two) : CallHolds ⟨some S, none⟩ (.running S)
  | collect {S : Byte} {d : Data7} (h2 : req S = .two) : CallHolds ⟨some S, some d⟩ (.collect S d)

/-- A call with the bytes `bs` that answers `r` returns what the table delivers from `m` on the bytes it consumed: whatever
follows, the rest of the messages is the table's on the bytes left. -/
def Answers (m : Mode) (bs : List Byte) (r : CallResult) : Prop :=
  ∃ m', CallHolds r.state m' ∧
    ∀ tail, (runModes m (bs ++ tail)).2 = r.out.toList ++ (runModes m' (r.rest ++ tail)).2

section
variable {cs : CallState} {m m' : Mode} {S b : Byte} {bs : List Byte} {r : CallResult}

theorem answers_unchanged (h : CallHolds cs m) (bs : List Byte) : Answers m bs ⟨cs, bs, none⟩ := ⟨m, h, fun _ => rfl⟩

theorem Answers.cons (h : Answers m' bs r) (hb : modeStep m b = (m', none)) : Answers m (b :: bs) r := by
  obtain ⟨m'', hholds, hmsgs⟩ := h
  exact ⟨m'', hholds, fun tail => by simpa [runModes, hb] using hmsgs tail⟩

theorem answers_delivery {x : Message} (hb : modeStep m b = (m', some x)) (h : CallHolds cs m') (bs : List Byte) :
    Answers m (b :: bs) ⟨cs, bs, some x⟩ :=
  ⟨m', h, fun tail => by simp [runModes, hb]⟩

/-- A status byte left unread: the next call reads it from `Idle`, and the table does with it the same from there. -/
theorem answers_status_left (h7 : ¬ b ≤ 0x7F#8) (hrt : ¬ 0xF8#8 ≤ b) (m : Mode) (bs : List Byte) :
    Answers m (b :: bs) ⟨callEmpty, b :: bs, none⟩ :=
  ⟨.idle, .idle, fun tail => by simp [runModes, modeStep_status h7 hrt m .idle]⟩

theorem answers_sysexScan (p : Option Data7) (bs : List Byte) :
    Answers .sysex bs (sysexScan ⟨some 0xF0#8, p⟩ bs) := by
  induction bs with
  | nil => exact answers_unchanged (.sysex p) []
  | cons b bs ih =>
    by_cases hb : b ≤ 0x7F#8
    · rw [sysexScan_cons_data hb]
      exact ih.cons (modeStep_of_le (.inr rfl) hb)
    · rw [sysexScan_cons_status hb]
      split_ifs with heox
      · exact (answers_unchanged .idle bs).cons (by rw [heox]; rfl)
      · exact ⟨.idle, .idle, fun tail => (runModes_idle_eq_sysex _).symm⟩

theorem answers_callFinish {out : Option Message} {x : Message} (hout : out = some x)
    (hreq : req S = .one ∨ req S = .two) (hb : modeStep m b = (.running S, some x)) (bs : List Byte) :
    Answers m (b :: bs) (callFinish S bs out) := by
  rw [hout]
  exact answers_delivery hb (.running hreq) bs

theorem answers_callCollect {p : Option Data7} (h : CallHolds ⟨some S, p⟩ m) (hS : S ≠ 0xF0#8) (bs : List Byte) :
    Answers m bs (callCollect S p bs) := by
  induction bs generalizing p m with
  | nil => exact answers_unchanged h []
  | cons b bs ih =>
    by_cases hb : b ≤ 0x7F#8
    · have hstep := modeStep_of_data hb m
      cases h with
      | sysex => exact absurd rfl hS
      | running hreq =>
        rcases hreq with h1 | h2
        · obtain ⟨x, hx⟩ := synth_of_req_one S (dataValue b) h1
          rw [callCollect_cons_one hb h1]
          exact answers_callFinish hx (.inl h1) (by simp [hstep, modeAfterData, h1, hx]) bs
        · rw [callCollect_cons_first hb (by simp [h2])]
          exact (ih (.collect h2)).cons (by simp [hstep, modeAfterData, h2])
      | @collect _ d h2 =>
        obtain ⟨x, hx⟩ := synth_of_req_two S d (dataValue b) h2
        rw [callCollect_cons_second hb]
        exact answers_callFinish hx (.inr h2) (by simp [hstep, modeAfterData, hx]) bs
    · by_cases hrt : 0xF8#8 ≤ b
      · rw [callCollect_cons_realTime hrt]
        exact (ih h).cons (modeStep_realTime hrt m)
      · rw [callCollect_cons_status hb hrt]
        exact answers_status_left hb hrt m bs

/-- The status columns of R81: step 2 of the source. -/
theorem answers_callStatus (h7 : ¬ b ≤ 0x7F#8) (hrt : ¬ 0xF8#8 ≤ b) (m : Mode) (bs : List Byte) :
    Answers m (b :: bs) (callStatus b bs) := by
  rw [callStatus]
  split_ifs with hF0 hchan
  · rw [hF0]
    exact (answers_sysexScan none bs).cons rfl
  · have key : ∀ b : Byte, ¬ b ≤ 0x7F#8 → b ≤ 0xEF#8 → (0x80#8 ≤ b ∧ b ≠ 0xF0#8) ∧ byteClass b = .channelStatus := by decide
    obtain ⟨⟨hlow, hne⟩, hc⟩ := key b h7 hchan
    exact (answers_callCollect (.running (req_of_channelStatus b hlow hchan)) hne bs).cons
      (by simp [modeStep, modeAfterStatus, hc])
  · have key : ∀ b : Byte, ¬ b ≤ 0xEF#8 → b ≠ 0xF0#8 → ¬ 0xF8#8 ≤ b →
        byteClass b = .eox ∨ byteClass b = .otherSystemCommon := by decide
    have hc := key b hchan hF0 hrt
    exact (answers_unchanged .idle bs).cons (by rcases hc with hc | hc <;> simp [modeStep, modeAfterStatus, hc])

/-- The data column of R81: steps 3 to 5 and 7 of the source. -/
theorem answers_callData (h : CallHolds cs m) (hb : b ≤ 0x7F#8) (bs : List Byte) :
    Answers m (b :: bs) (callData cs b bs) := by
  cases h with
  | idle => exact (answers_unchanged .idle bs).cons (modeStep_of_le (.inl rfl) hb)
  | sysex p => exact (answers_sysexScan _ bs).cons (modeStep_of_le (.inr rfl) hb)
  | running hreq =>
    have hne := ne_sysexStart_of_req _ hreq
    simpa [callData, hne] using answers_callCollect (.running hreq) hne (b :: bs)
  | collect h2 =>
    have hne := ne_sysexStart_of_req _ (.inr h2)
    simpa [callData, hne] using answers_callCollect (.collect h2) hne (b :: bs)

theorem answers_decodeCall (h : CallHolds cs m) (bs : List Byte) : Answers m bs (decodeCall cs bs) := by
  cases bs with
  | nil => exact answers_unchanged h []
  | cons b bs =>
    by_cases hb : b ≤ 0x7F#8
    · rw [decodeCall_cons_data hb]
      exact answers_callData h hb bs
    · by_cases hrt : 0xF8#8 ≤ b
      · rw [decodeCall_cons_realTime hrt]
        exact (answers_unchanged h bs).cons (modeStep_realTime hrt m)
      · rw [decodeCall_cons_status hb hrt]
        exact answers_callStatus hb hrt m bs

/-- A run of calls returns what the table delivers, up to the bytes still unread. -/
theorem runCalls_messages (h : CallHolds cs m) (unread : List Byte) (arrivals : List (List Byte)) :
    ∃ m', (runModes m (unread ++ arrivals.flatten)).2 =
      (runCalls cs unread arrivals).2.2 ++ (runModes m' (runCalls cs unread arrivals).2.1).2 := by
  induction arrivals generalizing cs m unread with
  | nil => exact ⟨m, by simp [runCalls]⟩
  | cons arrived more ih =>
    obtain ⟨m₁, h₁, hcall⟩ := answers_decodeCall h (unread ++ arrived)
    obtain ⟨m₂, hmore⟩ := ih h₁ (decodeCall cs (unread ++ arrived)).rest
    refine ⟨m₂, ?_⟩
    rw [List.flatten_cons, ← List.append_assoc, hcall, hmore, ← List.append_assoc]
    rfl

theorem callHolds_callStateOf {s : State} (h : modeOf s = some m) : CallHolds (callStateOf s) m := by
  obtain ⟨hvalid, hstatus, hpending⟩ := modeOf_eq_some_iff.mp h
  rw [callStateOf, hstatus, hpending]
  cases m with
  | idle => exact .idle
  | running S => exact .running (req_of_channelStatus S hvalid.1 hvalid.2)
  | collect S d => exact .collect hvalid
  | sysex => exact .sysex none

end

/-- Settles O56: registers and calls both deliver what the table does, and in the end no byte is unread. -/
theorem callViewDeliversTheSameMessages : Obligations.CallViewDeliversTheSameMessages := by
  intro s arrivals hinv
  obtain ⟨m, hm⟩ := Option.isSome_iff_exists.mp ((modeOf_isSome s).trans hinv)
  obtain ⟨-, hregisters⟩ := registersRefineTheModeTable arrivals.flatten s m hm
  obtain ⟨m', hcalls⟩ := runCalls_messages (callHolds_callStateOf hm) []
    (arrivals ++ List.replicate arrivals.flatten.length [])
  rw [runCalls_unread _ _ _ (by simp)] at hcalls
  rw [hregisters]
  simpa [runModes] using hcalls.symm

end Sys2Proof.Machine
end
